-- ==== Sys2Proof/Word.lean ====
section
/-! DEFINITION. The byte of the links and its plainest arithmetic. -/

namespace Sys2Proof

/-- One byte on the control, memory or display link. -/
abbrev Byte := BitVec 8

/-- A two-byte field of a payload or a record. -/
abbrev Half := BitVec 16

end Sys2Proof
end

