-- ==== Sys2Proof/Syntax.lean ====
section
/-! DEFINITION. The commands of the block: one constructor of `Instr` per row of the opcode table, and
the requests of Table 10-3 (two of which, SPELL-ENABLE and RESUME, have no row; log 2). -/

namespace Sys2Proof

/-- One key record of a KEYS request (R10, Table 11-2). -/
structure KeyRec where
  code : Byte
  bold : Bool
  underline : Bool
  release : Bool
  deriving DecidableEq, Repr

/-- The eight optional fields of SET-LAYOUT, in the order of R27, each one byte when present. -/
structure LayoutFields where
  alignment : Option Byte
  lineSpacing : Option Byte
  impression : Option Byte
  releaseMode : Option Byte
  decimalChar : Option Byte
  beeperEnable : Option Byte
  bellWidth : Option Byte
  idleMinutes : Option Byte
  deriving DecidableEq, Repr

/-- The six sensors, in the order of Table 9-1. -/
inductive Sensor where
  | cover | paper | ribbonEnd | tapeEnd | carriageHome | wheelIndex
  deriving DecidableEq, Repr

/-- The six sensor levels; `true` is level 1 of Table 9-1. -/
structure SensorLevels where
  cover : Bool
  paper : Bool
  ribbonEnd : Bool
  tapeEnd : Bool
  carriageHome : Bool
  wheelIndex : Bool
  deriving DecidableEq, Repr

/-- The two encoders (R82, R86). -/
inductive Axis where
  | carriage | wheel
  deriving DecidableEq, Repr

/-- The two lifters (R70, R76). -/
inductive Lifter where
  | ribbon | tape
  deriving DecidableEq, Repr

/-- The requests of Table 10-3 with the payload fields of Table 11-2, before any check of an owning rule. -/
inductive Request where
  | identify
  | status
  | keys (recs : List KeyRec)
  | correct
  | wordErase
  | lineErase
  | index (direction count : Byte)
  | setMargins (left right : Half)
  | setLayout (fields : LayoutFields)
  | setTab (position : Half) (kind : Byte)
  | clearTab (position : Half)
  | clearAllTabs
  | spellEnable (on : Byte)
  | spellAccept
  | spellAdd
  | userWordRead (n : Byte)
  | userWordDelete (codes : List Byte)
  | drain
  | wheelAssign (id : Byte)
  | resume
  | discard
  | recover
  | displayOverlay (timeout first : Byte) (codes : List Byte)
  | displayRelease
  | eventsRead (group : Byte)
  | eventsClear (group : Byte) (latches : Half)
  | eventMask (group : Byte) (masked : Half)
  | sensorConfig (sensor edge change wake : Byte)
  | lamp (line : Byte) (assignment level : Option Byte)
  | beep (pattern : Byte)
  | saveSettings
  | reset
  deriving DecidableEq, Repr

/-- The commands: one constructor per row of spec/opcode_table.json. A request row carries the tag
chosen by the host (R183) and its payload fields; an event row carries what the outside reports with it. -/
inductive Instr where
  | identify (tag : Byte)
  | status (tag : Byte)
  | keys (tag : Byte) (recs : List KeyRec)
  | correct (tag : Byte)
  | wordErase (tag : Byte)
  | lineErase (tag : Byte)
  | index (tag direction count : Byte)
  | setMargins (tag : Byte) (left right : Half)
  | setLayout (tag : Byte) (fields : LayoutFields)
  | setTab (tag : Byte) (position : Half) (kind : Byte)
  | clearTab (tag : Byte) (position : Half)
  | clearAllTabs (tag : Byte)
  | spellAccept (tag : Byte)
  | spellAdd (tag : Byte)
  | userWordRead (tag n : Byte)
  | userWordDelete (tag : Byte) (codes : List Byte)
  | drain (tag : Byte)
  | wheelAssign (tag id : Byte)
  | discard (tag : Byte)
  | recover (tag : Byte)
  | displayOverlay (tag timeout first : Byte) (codes : List Byte)
  | displayRelease (tag : Byte)
  | eventsRead (tag group : Byte)
  | eventsClear (tag group : Byte) (latches : Half)
  | eventMask (tag group : Byte) (masked : Half)
  | sensorConfig (tag sensor edge change wake : Byte)
  | lamp (tag line : Byte) (assignment level : Option Byte)
  | beep (tag pattern : Byte)
  | saveSettings (tag : Byte)
  | reset (tag : Byte)
  | powerOnReset (bselHigh : Bool) (levels : SensorLevels)
  | receiveByte (b : Byte)
  | brokenByte
  | partialFrameTimeout
  | takeRequest
  | frameSent
  | headerReadEnd (bytes : List Byte)
  | tableLoadEnd (bytes : List Byte)
  | directoryReadEnd (bytes : List Byte)
  | bucketReadEnd (bytes : List Byte)
  | nvRecordReadEnd (bytes : List Byte)
  | pageWriteEnd
  | pageReadbackEnd (bytes : List Byte)
  | supervisionTick (busMoved : Bool)
  | stall
  | encoderEdge (axis : Axis)
  | motionSettled
  | hammerPulseEnd
  | hammerHome
  | lifterDone (which : Lifter)
  | platenStep
  | parkMoveDone
  | wheelHomingEnd (id : BitVec 5)
  | sensorLevelChange (sensor : Sensor) (level : Bool)
  | idleTimerExpiry
  | standbyEntry
  | blinkTimerExpiry
  | displaySendBegin
  | displaySendEnd
  | gapTimerExpiry
  | overlayTimeout
  | beeperTimerExpiry
  deriving DecidableEq, Repr

end Sys2Proof
end

