-- ==== Sys2Proof/Decode.lean ====
section
/-! DEFINITION. The byte forms of the control link: payloads of requests to and from `Request` (R188,
R195, Table 11-2), frames to and from the bytes on the line (R183), and the decoder of opcode-table
words, which answers none because no row of the table has bits. -/

namespace Sys2Proof

/-- No row of the opcode table gives bits, so no word spells a command. -/
def decodeTableWord (_nbits _w : Nat) : Option Instr := none

/-- A two-byte number, low byte first (R195). -/
def le16 (lo hi : Byte) : Half := hi ++ lo

/-- The low byte of a two-byte number. -/
def lowByte (h : Half) : Byte := h.extractLsb' 0 8

/-- The high byte of a two-byte number. -/
def highByte (h : Half) : Byte := h.extractLsb' 8 8

/-- A number as two bytes, low byte first (R195). -/
def bytes16 (n : Nat) : List Byte := [BitVec.ofNat 8 n, BitVec.ofNat 8 (n / 256)]

/-- A yes/no byte (R195). -/
def yesNo (b : Bool) : Byte := if b then 1 else 0

/-- The key records of a KEYS payload (Table 11-2): code, then attributes; none for an odd length. -/
def decodeKeys : List Byte → Option (List KeyRec)
  | [] => some []
  | c :: a :: rest =>
    (decodeKeys rest).map fun rs =>
      { code := c, bold := a.getLsbD 0, underline := a.getLsbD 1, release := a.getLsbD 2 } :: rs
  | [_] => none

/-- The attribute byte of a key record (Table 11-2). -/
def attributeByte (r : KeyRec) : Byte :=
  BitVec.ofNat 8 (r.bold.toNat + 2 * r.underline.toNat + 4 * r.release.toNat)

/-- The bytes of key records. -/
def encodeKeys : List KeyRec → List Byte
  | [] => []
  | r :: rs => r.code :: attributeByte r :: encodeKeys rs

/-- A field that the presence set names, or absent (R195). -/
def present (set : Byte) (i : Nat) (b : Byte) : Option Byte := if set.getLsbD i then some b else none

/-- The two refusals of the link's own check (R188). -/
inductive LinkRefusal where
  | unknownKind | badLength
  deriving DecidableEq, Repr

/-- A payload of no bytes. -/
def noBytes (r : Request) : List Byte → Option Request
  | [] => some r
  | _ => none

/-- A payload of one byte. -/
def oneByte (f : Byte → Request) : List Byte → Option Request
  | [a] => some (f a)
  | _ => none

/-- A payload of two bytes. -/
def twoBytes (f : Byte → Byte → Request) : List Byte → Option Request
  | [a, b] => some (f a b)
  | _ => none

/-- A payload of three bytes. -/
def threeBytes (f : Byte → Byte → Byte → Request) : List Byte → Option Request
  | [a, b, c] => some (f a b c)
  | _ => none

/-- A payload of four bytes. -/
def fourBytes (f : Byte → Byte → Byte → Byte → Request) : List Byte → Option Request
  | [a, b, c, d] => some (f a b c d)
  | _ => none

/-- The payload of SET-LAYOUT: a presence set and eight fields (Table 11-2). -/
def layoutPayload : List Byte → Option Request
  | [s, a, b, c, d, e, f, g, h] =>
    some (.setLayout
      { alignment := present s 0 a, lineSpacing := present s 1 b, impression := present s 2 c
        releaseMode := present s 3 d, decimalChar := present s 4 e, beeperEnable := present s 5 f
        bellWidth := present s 6 g, idleMinutes := present s 7 h })
  | _ => none

/-- The payload of DISPLAY-OVERLAY: timeout, first position, codes (Table 11-2). -/
def overlayPayload : List Byte → Option Request
  | t :: f :: cs => some (.displayOverlay t f cs)
  | _ => none

/-- The reader of a kind's payload; absent for a kind that is not a request kind (Tables 10-3 and 11-2). -/
def payloadReader : Nat → Option (List Byte → Option Request)
  | 0x01 => some (noBytes .identify)
  | 0x02 => some (noBytes .status)
  | 0x03 => some fun p => (decodeKeys p).map .keys
  | 0x04 => some (noBytes .correct)
  | 0x05 => some (noBytes .wordErase)
  | 0x06 => some (noBytes .lineErase)
  | 0x07 => some (twoBytes .index)
  | 0x08 => some (fourBytes fun l0 l1 r0 r1 => .setMargins (le16 l0 l1) (le16 r0 r1))
  | 0x09 => some layoutPayload
  | 0x0A => some (threeBytes fun p0 p1 k => .setTab (le16 p0 p1) k)
  | 0x0B => some (twoBytes fun p0 p1 => .clearTab (le16 p0 p1))
  | 0x0C => some (noBytes .clearAllTabs)
  | 0x0D => some (oneByte .spellEnable)
  | 0x0E => some (noBytes .spellAccept)
  | 0x0F => some (noBytes .spellAdd)
  | 0x10 => some (oneByte .userWordRead)
  | 0x11 => some fun p => some (.userWordDelete p)
  | 0x12 => some (noBytes .drain)
  | 0x13 => some (oneByte .wheelAssign)
  | 0x14 => some (noBytes .resume)
  | 0x15 => some (noBytes .discard)
  | 0x16 => some (noBytes .recover)
  | 0x17 => some overlayPayload
  | 0x18 => some (noBytes .displayRelease)
  | 0x19 => some (oneByte .eventsRead)
  | 0x1A => some (threeBytes fun g s0 s1 => .eventsClear g (le16 s0 s1))
  | 0x1B => some (threeBytes fun g s0 s1 => .eventMask g (le16 s0 s1))
  | 0x1C => some (fourBytes .sensorConfig)
  | 0x1D => some (fourBytes fun n s a l => .lamp n (present s 0 a) (present s 1 l))
  | 0x1E => some (oneByte .beep)
  | 0x1F => some (noBytes .saveSettings)
  | 0x20 => some (noBytes .reset)
  | _ => none

/-- The request in a frame (R188): the kind is looked at first, then the payload length. -/
def decodeRequest (kind : Byte) (payload : List Byte) : Except LinkRefusal Request :=
  match payloadReader kind.toNat with
  | none => .error .unknownKind
  | some read =>
    match read payload with
    | none => .error .badLength
    | some r => .ok r

/-- The kind of a request (Table 10-3). -/
def Request.kind : Request → Byte
  | .identify => 0x01
  | .status => 0x02
  | .keys _ => 0x03
  | .correct => 0x04
  | .wordErase => 0x05
  | .lineErase => 0x06
  | .index _ _ => 0x07
  | .setMargins _ _ => 0x08
  | .setLayout _ => 0x09
  | .setTab _ _ => 0x0A
  | .clearTab _ => 0x0B
  | .clearAllTabs => 0x0C
  | .spellEnable _ => 0x0D
  | .spellAccept => 0x0E
  | .spellAdd => 0x0F
  | .userWordRead _ => 0x10
  | .userWordDelete _ => 0x11
  | .drain => 0x12
  | .wheelAssign _ => 0x13
  | .resume => 0x14
  | .discard => 0x15
  | .recover => 0x16
  | .displayOverlay _ _ _ => 0x17
  | .displayRelease => 0x18
  | .eventsRead _ => 0x19
  | .eventsClear _ _ => 0x1A
  | .eventMask _ _ => 0x1B
  | .sensorConfig _ _ _ _ => 0x1C
  | .lamp _ _ _ => 0x1D
  | .beep _ => 0x1E
  | .saveSettings => 0x1F
  | .reset => 0x20

/-- The presence set of SET-LAYOUT (R195, Table 11-2). -/
def layoutPresence (f : LayoutFields) : Byte :=
  BitVec.ofNat 8 (f.alignment.isSome.toNat + 2 * f.lineSpacing.isSome.toNat + 4 * f.impression.isSome.toNat
    + 8 * f.releaseMode.isSome.toNat + 16 * f.decimalChar.isSome.toNat + 32 * f.beeperEnable.isSome.toNat
    + 64 * f.bellWidth.isSome.toNat + 128 * f.idleMinutes.isSome.toNat)

/-- The payload of a request (Table 11-2); an absent field is sent as 0. -/
def Request.payload : Request → List Byte
  | .keys recs => encodeKeys recs
  | .index d c => [d, c]
  | .setMargins l r => [lowByte l, highByte l, lowByte r, highByte r]
  | .setLayout f =>
    [layoutPresence f, f.alignment.getD 0, f.lineSpacing.getD 0, f.impression.getD 0, f.releaseMode.getD 0,
      f.decimalChar.getD 0, f.beeperEnable.getD 0, f.bellWidth.getD 0, f.idleMinutes.getD 0]
  | .setTab p k => [lowByte p, highByte p, k]
  | .clearTab p => [lowByte p, highByte p]
  | .spellEnable b => [b]
  | .userWordRead n => [n]
  | .userWordDelete cs => cs
  | .wheelAssign n => [n]
  | .displayOverlay t f cs => t :: f :: cs
  | .eventsRead g => [g]
  | .eventsClear g s => [g, lowByte s, highByte s]
  | .eventMask g s => [g, lowByte s, highByte s]
  | .sensorConfig n e c w => [n, e, c, w]
  | .lamp n a l => [n, BitVec.ofNat 8 (a.isSome.toNat + 2 * l.isSome.toNat), a.getD 0, l.getD 0]
  | .beep p => [p]
  | .identify | .status | .correct | .wordErase | .lineErase | .clearAllTabs | .spellAccept | .spellAdd
  | .drain | .resume | .discard | .recover | .displayRelease | .saveSettings | .reset => []

/-- The start byte of a frame (R183). -/
abbrev startByte : Byte := 0xD4

/-- The escape byte of the line (R183). -/
abbrev escapeByte : Byte := 0xD5

/-- The sum of bytes modulo 256 (R183). -/
def byteSum (bs : List Byte) : Byte := bs.foldl (· + ·) 0

/-- The body of a frame: length, kind, tag, payload and check byte (R183, Table 11-1). -/
def frameBody (kind tag : Byte) (payload : List Byte) : List Byte :=
  let head := BitVec.ofNat 8 (payload.length + 2) :: kind :: tag :: payload
  head ++ [- byteSum head]

/-- Body bytes as they are sent on the line (R183). -/
def escapeBytes : List Byte → List Byte
  | [] => []
  | b :: bs => if b = startByte ∨ b = escapeByte then escapeByte :: (b + 0x20) :: escapeBytes bs else b :: escapeBytes bs

/-- The bytes on the line of a frame (R183): the start byte, then the escaped body. -/
def frameLine (kind tag : Byte) (payload : List Byte) : List Byte :=
  startByte :: escapeBytes (frameBody kind tag payload)

end Sys2Proof
end

