-- ==== Sys2Proof/Config.lean ====
section
/-! DEFINITION. What the part fixes: capacities, limits and the identity values. The spec leaves no
result value undefined, so there is no free value here. -/

namespace Sys2Proof.Config

/-- Cell records of the pool (R4). -/
abbrev poolCells : Nat := 384
/-- Line records of the line list (R7). -/
abbrev maxLines : Nat := 4
/-- Cells of one line, its return included (R15). -/
abbrev lineCells : Nat := 192
/-- Type-ahead limit (R13). -/
abbrev typeAheadLimit : Nat := 128
/-- Type-ahead warning level (R59). -/
abbrev typeAheadHigh : Nat := 112
/-- Jobs of the job queue (R67). -/
abbrev maxJobs : Nat := 256
/-- Tab stops of the tab table (R25). -/
abbrev maxTabs : Nat := 20
/-- The right stop (R17, 00_scope). -/
abbrev rightStop : Nat := 1560
/-- Requests of the check queue (R124). -/
abbrev maxChecks : Nat := 6
/-- Words of the user word list (R135a). -/
abbrev maxUserWords : Nat := 40
/-- Frames of the input buffer (R186). -/
abbrev maxInput : Nat := 4
/-- Places of the output queue (R189). -/
abbrev outputPlaces : Nat := 8
/-- Steps of the paper-out feed (R89). -/
abbrev paperFeedSteps : Nat := 96
/-- Rightward limit of carriage homing, units (R82). -/
abbrev homeRightLimit : Nat := 60
/-- Leftward limit of carriage homing, units (R82). -/
abbrev homeLeftLimit : Nat := 1700
/-- Limit of the search for the index petal, motor steps (R83). -/
abbrev indexLimit : Nat := 800
/-- Motor steps of one wheel revolution (R83). -/
abbrev revolution : Nat := 400
/-- Vendor code of IDENTIFY (Table 11-3). -/
abbrev vendorCode : Nat := 0x1C4B
/-- Part code of IDENTIFY (Table 11-3). -/
abbrev partCode : Nat := 0x0062
/-- Silicon revision of IDENTIFY (Table 11-3). -/
abbrev siliconRevision : Nat := 1
/-- Highest bucket directory offset of a good ROM header (R151). -/
abbrev maxDirOffset : Nat := 0xFFD000
/-- Length of a ROM header, bytes (Table 11-7). -/
abbrev headerBytes : Nat := 200
/-- Length of a wheel table record, bytes (Table 11-8). -/
abbrev tableBytes : Nat := 353
/-- Length of the settings record (R152). -/
abbrev settingsBytes : Nat := 64
/-- Length of the user-list record (R152). -/
abbrev listBytes : Nat := 1024
/-- Bytes of one EEPROM page (R154). -/
abbrev pageBytes : Nat := 16

end Sys2Proof.Config
end

