-- ==== Sys2Proof/Machine/State.lean ====
section
/-! DEFINITION. Every piece of state the spec gives the part, block by block, and the part right after
power-on reset. Plain data throughout. -/

namespace Sys2Proof.Machine

/-! ### The Line Store (01_the_line_store.md) -/

/-- Kinds of a cell (Table 1-1). -/
inductive CellKind where
  | glyph | space | tab | ret | paraRet
  deriving DecidableEq, Repr

/-- States of a cell (Table 1-2). -/
inductive CellState where
  | held | queued | striking | printed
  deriving DecidableEq, Repr

/-- The hold reasons of a cell (R50). -/
structure Holds where
  word : Bool := false
  line : Bool := false
  decimal : Bool := false
  deriving DecidableEq, Repr

/-- One blow of the hammer (section 2.2): petal, offset, made mark, energy level. -/
structure Impression where
  petal : Nat
  offset : Nat
  level : Nat
  made : Bool := false
  deriving DecidableEq, Repr

/-- Spelling marks of a letter cell (Table 1-1). -/
inductive SpellMark where
  | unchecked | pending | hit | miss | skip | accepted
  deriving DecidableEq, Repr

/-- A word number with its generation (R23). The letter cells of a word carry both (log 26). -/
structure WordRef where
  number : Nat
  generation : Nat
  deriving DecidableEq, Repr

/-- A cell record (R1, Table 1-1). `code` is the key's code (32 for a TAB entered as a SPACE); only a
GLYPH's code is ever read but for the digit tests of R123. An absent impression list is the empty list. -/
structure Cell where
  seq : Nat
  kind : CellKind
  code : Nat
  bold : Bool := false
  underline : Bool := false
  width : Nat := 0
  position : Option Nat := none
  state : CellState := .held
  holds : Holds := {}
  impressions : List Impression := []
  drainMark : Bool := false
  word : Option WordRef := none
  mark : Option SpellMark := none
  deriving DecidableEq, Repr

/-- States of a line (R6). -/
inductive LineState where
  | opened | closed | done
  deriving DecidableEq, Repr

/-- Alignments (Table 1-3), in the order of their names (R195). -/
inductive Alignment where
  | flushLeft | center | flushRight | justify
  deriving DecidableEq, Repr

/-- A decimal segment (R22): stop S, point P, the TAB cell and the cells entered after it, by sequence. -/
structure Segment where
  stop : Nat
  point : Nat
  tab : Nat
  cells : List Nat
  deriving DecidableEq, Repr

/-- A line record (R5, Table 1-3). The natural width is `Line.naturalWidth`, a function of the cells. -/
structure Line where
  state : LineState := .opened
  left : Nat
  right : Nat
  alignment : Alignment
  spacing : Nat
  cells : List Cell := []
  bellRung : Bool := false
  reach : Bool := false
  segment : Option Segment := none
  placement : Option (List Nat) := none
  deriving DecidableEq, Repr

/-- Release modes (Table 1-12). -/
inductive ReleaseMode where
  | direct | word
  deriving DecidableEq, Repr

/-- Kinds of a tab stop (R25). -/
inductive TabKind where
  | left | decimal
  deriving DecidableEq, Repr

/-- A tab stop (R25). -/
structure TabStop where
  position : Nat
  kind : TabKind
  deriving DecidableEq, Repr

/-- The Line Store settings (R26, Table 1-12). -/
structure LineSettings where
  left : Nat := 120
  right : Nat := 1320
  alignment : Alignment := .flushLeft
  spacing : Nat := 8
  releaseMode : ReleaseMode := .direct
  decimalChar : Nat := 46
  bellWidth : Nat := 60
  tabs : List TabStop := []
  deriving DecidableEq, Repr

/-- The Line Store: the line list (`earlier`, then the OPEN line), the counters and the word tracker. -/
structure LineStore where
  earlier : List Line
  openLine : Line
  nextSeq : Nat
  nextWord : Nat
  openWord : Option WordRef
  pendingApostrophe : Option Nat
  settings : LineSettings
  deriving DecidableEq, Repr

/-! ### The Print Sequencer (04_the_print_mechanism.md) -/

/-- Mechanism states, in the order of Table 4-1 (R65, R195). -/
inductive MechState where
  | off | homing | ready | busy | suspended | interlocked | wheelWait | fault | standby
  deriving DecidableEq, Repr

/-- The suspend reason set (R65). -/
structure SuspendSet where
  paper : Bool := false
  ribbon : Bool := false
  tape : Bool := false
  deriving DecidableEq, Repr

/-- What a STRIKE strikes: the cell of a sequence, or the copy of a detached STRIKE (R69). -/
inductive StrikeTarget where
  | cell (seq : Nat)
  | detached (position : Nat) (impressions : List Impression)
  deriving DecidableEq, Repr

/-- The jobs of Table 4-2. `cross` counts its platen steps and its carriage edges apart (log 17). -/
inductive JobKind where
  | strike (target : StrikeTarget)
  | lift (position : Nat) (snapshot : List Impression) (isPending : Bool) (liftsDone : Nat)
  | feed (forward : Bool) (steps : Nat) (link : Option Nat) (stepsDone : Nat)
  | cross (back : Nat) (target : Nat) (stepsDone : Nat) (edgesDone : Nat)
  deriving DecidableEq, Repr

/-- A job with the marked flag of DRAIN (R60, R67). -/
structure Job where
  kind : JobKind
  marked : Bool := false
  deriving DecidableEq, Repr

/-- What the job in flight is doing; `rest` when there is none, or when it is stopped (R66). -/
inductive Phase where
  | rest | moving | tapeRising | pulse | retract | paused | feeding | crossing
  deriving DecidableEq, Repr

/-- A wheel motion (R73). -/
structure WheelMove where
  target : Nat
  clockwise : Bool
  stepsLeft : Nat
  deriving DecidableEq, Repr

/-- Positions of a lifter (R70, R76). -/
inductive LifterPos where
  | down | rising | up | lowering
  deriving DecidableEq, Repr

/-- The hammer: at rest and home, driven by the pulse, or on its way home (R71). -/
inductive Hammer where
  | rest | driven | returning
  deriving DecidableEq, Repr

/-- The carriage part of a homing with the units travelled (R82). -/
inductive CarriageHoming where
  | ended | rightward (travel : Nat) | leftward (travel : Nat)
  deriving DecidableEq, Repr

/-- The wheel part of a homing with the steps made (R83). -/
inductive WheelHoming where
  | seeking (steps : Nat) | reading (steps : Nat) | ended (hub : Nat)
  deriving DecidableEq, Repr

/-- A homing in progress (R81). -/
structure Homing where
  carriage : CarriageHoming
  wheel : WheelHoming
  deriving DecidableEq, Repr

/-- What the comparison at the end of homing waits for, with the hub ID (R144, R145). -/
inductive HomingWait where
  | none | header (hub : Nat) | ownLoad (hub : Nat) | otherLoad (hub : Nat)
  deriving DecidableEq, Repr

/-- The Print Sequencer. -/
structure Sequencer where
  mech : MechState
  suspend : SuspendSet
  jobs : List Job
  inFlight : Bool
  flightSetting : Nat
  phase : Phase
  pulse : Nat
  carriage : Option Nat
  carTarget : Option Nat
  petal : Option Nat
  wheelMove : Option WheelMove
  platen : BitVec 16
  ribbonLifter : LifterPos
  tapeLifter : LifterPos
  hammer : Hammer
  parking : Bool
  paperFeed : Option Nat
  mark : Bool
  homing : Option Homing
  homingWait : HomingWait
  setting : Nat
  deriving DecidableEq, Repr

/-! ### The Spelling Checker (06_spelling.md) -/

/-- A request of the check queue (R124). -/
structure CheckRequest where
  word : WordRef
  letters : List Nat
  reading : Bool
  deriving DecidableEq, Repr

/-- A lookup in flight (R126): DIRECTORY while `bucket` is absent, BUCKET with the bucket's address. -/
structure Lookup where
  letters : List Nat
  bucket : Option Nat
  stale : Bool
  deriving DecidableEq, Repr

/-- A flagged word (R131). -/
structure Flagged where
  word : WordRef
  letters : List Nat
  deriving DecidableEq, Repr

/-- Availability of the dictionary (R137). -/
inductive Availability where
  | available | retrying | unavailable
  deriving DecidableEq, Repr

/-- The Spelling Checker. -/
structure Checker where
  queue : List CheckRequest
  lookup : Option Lookup
  userList : List (List Nat)
  flagged : List Flagged
  availability : Availability
  enabled : Bool
  deriving DecidableEq, Repr

/-! ### The Memory Link (07_wheels_and_the_memory_link.md) -/

/-- Wheel kinds (Table 7-1), in the order of Table 11-3. -/
inductive WheelKind where
  | p10 | p12 | p15 | ps
  deriving DecidableEq, Repr

/-- One petal (Table 7-1). -/
structure Petal where
  code : Nat
  width : Nat
  level : Nat
  deriving DecidableEq, Repr

/-- One composition entry (Table 7-1). -/
structure Composition where
  composite : Nat
  base : Nat
  accent : Nat
  deriving DecidableEq, Repr

/-- A wheel table (R141). -/
structure WheelTable where
  id : Nat
  kind : WheelKind
  spaceWidth : Nat
  underscore : Nat
  petals : List Petal
  compositions : List Composition
  deriving DecidableEq, Repr

/-- The copy of a good ROM header (R151); its signature and base-letter map are constants. -/
structure RomHeader where
  revision : Nat
  directory : Nat
  wheels : List (Nat × Nat)
  deriving DecidableEq, Repr

/-- A table load asked for: the table's ID, the hub ID it is assigned to (WHEEL-ASSIGN alone, R148), and
whether a homing asked for it (R144). -/
structure LoadRequest where
  id : Nat
  assignHub : Option Nat
  homing : Bool
  deriving DecidableEq, Repr

/-- Reasons of WHEEL_WAIT (R147). -/
inductive WaitReason where
  | mismatch | unknown
  deriving DecidableEq, Repr

/-- The wait record (R147); the decision is LOADING with the load it waits for, or NONE. `table` is the table that was active before
WHEEL_WAIT began, which stays the table in force while it lasts (R12, R147). -/
structure WaitRecord where
  reason : WaitReason
  hub : Nat
  decision : Option LoadRequest
  table : WheelTable
  deriving DecidableEq, Repr

/-- A save under way (R153, R154): the record as built, the pages still to write (the first is the current
one), whether its read-back is next, and whether the page has been written again. -/
structure SaveProgress where
  record : List Byte
  pages : List Nat
  readback : Bool
  retried : Bool
  deriving DecidableEq, Repr

/-- Entries of the NV class (R150). A save without progress has not started. -/
inductive NvItem where
  | readSettings
  | readList
  | saveSettings (progress : Option SaveProgress)
  | saveList (progress : Option SaveProgress)
  deriving DecidableEq, Repr

/-- The transaction on the bus (section 7.4). -/
inductive BusJob where
  | header
  | load (req : LoadRequest)
  | dictionary
  | nvRead
  | nvWrite
  | nvReadback
  deriving DecidableEq, Repr

/-- The transaction in flight with its two-tick mark (R151b). -/
structure Transaction where
  job : BusJob
  mark : Bool
  deriving DecidableEq, Repr

/-- The Memory Link. -/
structure MemoryLink where
  active : WheelTable
  boundId : Nat
  provisional : Bool
  header : Option RomHeader
  wait : Option WaitRecord
  headerWaiting : Bool
  loadWaiting : Option LoadRequest
  dictWaiting : Bool
  nv : List NvItem
  transaction : Option Transaction
  grantCounter : Nat
  image : List Byte
  pageKnown : List Bool
  settingsRead : Bool
  listRead : Bool
  deriving DecidableEq, Repr

/-! ### The Display Controller (08_the_line_display.md) -/

/-- Display states (Table 8-1). -/
inductive DisplayState where
  | starting | on | off
  deriving DecidableEq, Repr

/-- One position of the display frame (R158). -/
structure DisplayCell where
  code : Nat
  underbar : Bool
  deriving DecidableEq, Repr

/-- The Display Controller. `sending` holds the bytes being shifted while the link is SENDING (R164). -/
structure Display where
  state : DisplayState
  frame : List DisplayCell
  winStart : Nat
  blinkOn : Bool
  dirty : Bool
  gap : Bool
  sending : Option (List Byte)
  offOwed : Bool
  overlay : Option (List Nat)
  overlayTimer : Option Nat
  deriving DecidableEq, Repr

/-! ### The Monitor (09_sensors_events_and_power.md) -/

/-- Edge selects of a sensor (R170), in the order of Table 11-2. -/
inductive EdgeSelect where
  | rise | fall | both
  deriving DecidableEq, Repr

/-- The configuration of one sensor (R170). -/
structure SensorSetup where
  edge : EdgeSelect := .both
  change : Bool := false
  wake : Bool := false
  deriving DecidableEq, Repr

/-- The configuration of the six sensors. -/
structure SensorSetups where
  cover : SensorSetup := {}
  paper : SensorSetup := {}
  ribbonEnd : SensorSetup := {}
  tapeEnd : SensorSetup := {}
  carriageHome : SensorSetup := {}
  wheelIndex : SensorSetup := {}
  deriving DecidableEq, Repr

/-- One set of bits per event group, latches numbered as in Table 9-2 (R195). -/
structure GroupBits where
  mech : Half
  text : Half
  spell : Half
  link : Half
  sense : Half
  deriving DecidableEq, Repr

/-- The pending set (R173). -/
structure PendingSet where
  mech : Bool := false
  text : Bool := false
  spell : Bool := false
  link : Bool := false
  sense : Bool := false
  deriving DecidableEq, Repr

/-- Beeper patterns, in the order of Table 9-5. -/
inductive BeepPattern where
  | short | double | long | triple
  deriving DecidableEq, Repr

/-- A sounding pattern (R176): its phase, its tones left and the length loaded into the timer, ms. -/
structure Beeper where
  pattern : BeepPattern
  tone : Bool
  tonesLeft : Nat
  timer : Nat
  deriving DecidableEq, Repr

/-- Assignments of a lamp line, in the order of Table 11-2 (R177). -/
inductive LampFunction where
  | host | fault | flaggedWord | typeAheadHigh | standby
  deriving DecidableEq, Repr

/-- A lamp line (R177). -/
structure Lamp where
  assignment : LampFunction := .host
  level : Bool := false
  deriving DecidableEq, Repr

/-- Power states (R180). -/
inductive Power where
  | running | standby
  deriving DecidableEq, Repr

/-- The Monitor. -/
structure Monitor where
  levels : SensorLevels
  config : SensorSetups
  latches : GroupBits
  masks : GroupBits
  pendingSet : PendingSet
  beeper : Option Beeper
  beeperEnable : Bool
  lamps : List Lamp
  idleMinutes : Nat
  idle : Option Nat
  power : Power
  deriving DecidableEq, Repr

/-! ### The Control Link (10_the_control_link.md) -/

/-- A complete frame from the host; `woke` notes that its start byte woke the part (R175). -/
structure Frame where
  kind : Byte
  tag : Byte
  payload : List Byte
  woke : Bool := false
  deriving DecidableEq, Repr

/-- A frame of the part's own: a reply, a refusal or a NOTICE (R183). -/
structure OutFrame where
  kind : Byte
  tag : Byte
  payload : List Byte
  deriving DecidableEq, Repr

/-- The receiver (R184): HUNTING, or ASSEMBLING with the body values so far, whether the last byte was the
escape, and whether the start byte woke the part. -/
inductive Receiver where
  | hunting
  | assembling (body : List Byte) (escaped : Bool) (woke : Bool)
  deriving DecidableEq, Repr

/-- The Control Link. -/
structure ControlLink where
  receiver : Receiver
  rxMark : Bool
  input : List Frame
  hand : Option Frame
  output : List OutFrame
  drain : Option Byte
  save : Option Byte
  errors : Nat
  highBaud : Bool
  standbyTx : Nat
  deriving DecidableEq, Repr

/-- The whole part, with the model's queue of waiting commands. -/
structure State where
  pending : List Instr
  store : LineStore
  seq : Sequencer
  spell : Checker
  mem : MemoryLink
  disp : Display
  mon : Monitor
  link : ControlLink
  deriving DecidableEq, Repr

/-- No command of the spec stops the part with a fault; the one reason stands for a machine that cannot
go on, and no meaning raises it (safe). -/
inductive Fault where
  /-- Never raised: the spec gives the part no stop. Safe. -/
  | stopped
  deriving DecidableEq, Repr

/-- Reasons for having no meaning. -/
inductive Refusal where
  /-- A row without its meaning; no arm of `exec` answers with it. Safe. -/
  | notModelled (mnemonic : String)
  deriving DecidableEq, Repr

/-! ### The part right after power-on reset -/

/-- Energy level of a code on the built-in wheel (11_formats, 11.6). -/
def builtInLevel (code : Nat) : Nat :=
  if code ∈ [77, 87, 109, 119, 64, 37, 35] then 5
  else if 48 ≤ code ∧ code ≤ 57 ∨ 65 ≤ code ∧ code ≤ 90 then 4
  else if 97 ≤ code ∧ code ≤ 122 then 3
  else 2

/-- Code on a petal of the built-in wheel (11_formats, 11.6). -/
def builtInCode (p : Nat) : Nat :=
  if p ≤ 93 then 33 + p else if p = 94 then 163 else if p = 95 then 167 else 0

/-- The built-in wheel table (R142; 11_formats, 11.6). -/
def builtInTable : WheelTable where
  id := 0
  kind := .p10
  spaceWidth := 12
  underscore := 95
  petals := (List.range 100).map fun p =>
    { code := builtInCode p, width := 12, level := builtInLevel (builtInCode p) }
  compositions := []

/-- 40 spaces without underbars (Table 8-1). -/
def blankFrame : List DisplayCell := List.replicate 40 { code := 32, underbar := false }

/-- No bit of any group. -/
def GroupBits.none : GroupBits := { mech := 0, text := 0, spell := 0, link := 0, sense := 0 }

/-- Every latch of every group: 9, 8, 3, 7 and 6 of them (Table 9-2). -/
def GroupBits.all : GroupBits := { mech := 0x1FF, text := 0xFF, spell := 0x7, link := 0x7F, sense := 0x3F }

/-- A fresh OPEN line with copies of the settings (R5, R20). -/
def freshLine (s : LineSettings) : Line :=
  { left := s.left, right := s.right, alignment := s.alignment, spacing := s.spacing }

/-- The part right after power-on reset (Tables 1-13, 4-8, 6-6, 8-6, 9-8; R143, R156, R194): OFF, the three
memory transactions of R156 waiting. The sensor lines and BSEL are POWER_ON_RESET's operands; here they
are a closed cover, paper present, every other level 0, and BSEL low (DESIGN CHOICE, unsafe: log 8). Register
values the spec does not give are those of log 28, and the empty user word list before its restore read has ended is log 39's (DESIGN
CHOICE, unsafe). -/
def State.reset : State where
  pending := []
  store :=
    { earlier := [], openLine := freshLine {}, nextSeq := 1, nextWord := 1, openWord := none
      pendingApostrophe := none, settings := {} }
  seq :=
    { mech := .off, suspend := {}, jobs := [], inFlight := false, flightSetting := 2, phase := .rest
      pulse := 0, carriage := none, carTarget := none, petal := none, wheelMove := none, platen := 0
      ribbonLifter := .down, tapeLifter := .down, hammer := .rest, parking := false, paperFeed := none
      mark := false, homing := none, homingWait := .none, setting := 2 }
  spell :=
    { queue := [], lookup := none, userList := [], flagged := [], availability := .retrying, enabled := true }
  mem :=
    { active := builtInTable, boundId := 0, provisional := true, header := none, wait := none
      headerWaiting := true, loadWaiting := none, dictWaiting := false, nv := [.readSettings, .readList]
      transaction := none, grantCounter := 0, image := List.replicate 64 0
      pageKnown := List.replicate 4 false, settingsRead := false, listRead := false }
  disp :=
    { state := .starting, frame := blankFrame, winStart := 0, blinkOn := true, dirty := true, gap := true
      sending := none, offOwed := false, overlay := none, overlayTimer := none }
  mon :=
    { levels :=
        { cover := true, paper := true, ribbonEnd := false, tapeEnd := false, carriageHome := false
          wheelIndex := false }
      config := {}, latches := GroupBits.none, masks := GroupBits.all, pendingSet := {}, beeper := none
      beeperEnable := true, lamps := List.replicate 4 {}, idleMinutes := 10, idle := none, power := .running }
  link :=
    { receiver := .hunting, rxMark := false, input := [], hand := none, output := [], drain := none
      save := none, errors := 0, highBaud := false, standbyTx := 0 }

end Sys2Proof.Machine
end

