-- ==== Sys2Proof/Machine/Flags.lean ====
section
/-! DEFINITION. Event latches, masks, the pending set and its NOTICE (R172, R173), the output queue's
places (R189), and the beeper patterns that go with some causes (R176). -/

namespace Sys2Proof.Machine

/-- The event groups (R195). -/
inductive Group where
  | mech | text | spell | link | sense
  deriving DecidableEq, Repr

/-- A group by its name byte (R195). -/
def groupOfByte (b : Byte) : Option Group :=
  match b.toNat with
  | 0 => some .mech
  | 1 => some .text
  | 2 => some .spell
  | 3 => some .link
  | 4 => some .sense
  | _ => none

/-- The name byte of a group (R195). -/
def Group.byte : Group → Byte
  | .mech => 0
  | .text => 1
  | .spell => 2
  | .link => 3
  | .sense => 4

/-- The bits of one group. -/
def GroupBits.get (g : GroupBits) : Group → Half
  | .mech => g.mech
  | .text => g.text
  | .spell => g.spell
  | .link => g.link
  | .sense => g.sense

/-- Replace the bits of one group. -/
def GroupBits.set (g : GroupBits) (h : Half) : Group → GroupBits
  | .mech => { g with mech := h }
  | .text => { g with text := h }
  | .spell => { g with spell := h }
  | .link => { g with link := h }
  | .sense => { g with sense := h }

/-- The event latches (Table 9-2). -/
inductive Latch where
  | homed | jam | homeFail | paperOut | ribbonEnd | tapeEnd | wheelChanged | wheelMismatch | wheelUnknown
  | bell | marginLock | full | noGlyph | taHigh | taEmpty | justifySkip | alignClamp
  | miss | spellOverrun | dictFault
  | frameError | inputOverrun | memFault | nvFail | nvDefaults | standby | wake
  | chgCover | chgPaper | chgRibbon | chgTape | chgHome | chgIndex
  deriving DecidableEq, Repr

/-- The group of a latch and its number in the group (Table 9-2, R195). -/
def Latch.place : Latch → Group × Nat
  | .homed => (.mech, 0)
  | .jam => (.mech, 1)
  | .homeFail => (.mech, 2)
  | .paperOut => (.mech, 3)
  | .ribbonEnd => (.mech, 4)
  | .tapeEnd => (.mech, 5)
  | .wheelChanged => (.mech, 6)
  | .wheelMismatch => (.mech, 7)
  | .wheelUnknown => (.mech, 8)
  | .bell => (.text, 0)
  | .marginLock => (.text, 1)
  | .full => (.text, 2)
  | .noGlyph => (.text, 3)
  | .taHigh => (.text, 4)
  | .taEmpty => (.text, 5)
  | .justifySkip => (.text, 6)
  | .alignClamp => (.text, 7)
  | .miss => (.spell, 0)
  | .spellOverrun => (.spell, 1)
  | .dictFault => (.spell, 2)
  | .frameError => (.link, 0)
  | .inputOverrun => (.link, 1)
  | .memFault => (.link, 2)
  | .nvFail => (.link, 3)
  | .nvDefaults => (.link, 4)
  | .standby => (.link, 5)
  | .wake => (.link, 6)
  | .chgCover => (.sense, 0)
  | .chgPaper => (.sense, 1)
  | .chgRibbon => (.sense, 2)
  | .chgTape => (.sense, 3)
  | .chgHome => (.sense, 4)
  | .chgIndex => (.sense, 5)

/-- The group's bits with one latch set. -/
def GroupBits.withLatch (g : GroupBits) (l : Latch) : GroupBits :=
  g.set (g.get l.place.1 ||| ((1 : Half) <<< l.place.2)) l.place.1

/-- Whether a latch is set. -/
def GroupBits.has (g : GroupBits) (l : Latch) : Bool := (g.get l.place.1).getLsbD l.place.2

/-- A cause sets its latch; a latch already set stays set (R172). -/
def setLatch (l : Latch) (s : State) : State :=
  { s with mon := { s.mon with latches := s.mon.latches.withLatch l } }

/-- Set a latch when a condition holds. -/
def setLatchIf (c : Bool) (l : Latch) (s : State) : State := if c then setLatch l s else s

/-- Places of the output queue held for replies not yet queued (R189). -/
def reservedPlaces (k : ControlLink) : Nat :=
  k.hand.isSome.toNat + k.drain.isSome.toNat + k.save.isSome.toNat

/-- Free places of the output queue (R189). -/
def freePlaces (k : ControlLink) : Nat := Config.outputPlaces - (k.output.length + reservedPlaces k)

/-- The groups with a latch set and unmasked (R173). -/
def pendingOf (latches masks : GroupBits) : PendingSet where
  mech := latches.mech &&& ~~~masks.mech != 0
  text := latches.text &&& ~~~masks.text != 0
  spell := latches.spell &&& ~~~masks.spell != 0
  link := latches.link &&& ~~~masks.link != 0
  sense := latches.sense &&& ~~~masks.sense != 0

/-- Some group is pending in `new` that was not in `old`. -/
def PendingSet.gained (old new : PendingSet) : Bool :=
  new.mech && !old.mech || new.text && !old.text || new.spell && !old.spell || new.link && !old.link
    || new.sense && !old.sense

/-- The pending set as a byte (R195). -/
def PendingSet.byte (p : PendingSet) : Byte :=
  BitVec.ofNat 8 (p.mech.toNat + 2 * p.text.toNat + 4 * p.spell.toNat + 8 * p.link.toNat + 16 * p.sense.toNat)

/-- The NOTICE frame of a pending set (R173, Table 11-3). -/
def noticeFrame (p : PendingSet) : OutFrame := { kind := 0xE0, tag := 0, payload := [p.byte] }

/-- The end of an event: the pending set is brought up to date, and when a group became pending one NOTICE
with the whole set is queued if a place is free (R173). -/
def noticeCheck (s : State) : State :=
  let new := pendingOf s.mon.latches s.mon.masks
  let mon := { s.mon with pendingSet := new }
  if s.mon.pendingSet.gained new && decide (0 < freePlaces s.link) then
    { s with mon := mon, link := { s.link with output := s.link.output ++ [noticeFrame new] } }
  else { s with mon := mon }

/-- Tone length, gap length and number of tones of a pattern (Table 9-5). -/
def BeepPattern.shape : BeepPattern → Nat × Nat × Nat
  | .short => (50, 0, 1)
  | .double => (100, 100, 2)
  | .long => (500, 0, 1)
  | .triple => (150, 150, 3)

/-- A beep cause or a BEEP request starts a pattern, unless the beeper is disabled (R176). -/
def beep (p : BeepPattern) (s : State) : State :=
  if s.mon.beeperEnable then
    { s with
      mon := { s.mon with beeper := some { pattern := p, tone := true, tonesLeft := p.shape.2.2 - 1, timer := p.shape.1 } } }
  else s

end Sys2Proof.Machine
end

