-- ==== Sys2Proof/Machine/Operands.lean ====
section
/-! DEFINITION. Operand forms: named values by their bytes (R195), the code table (11_formats, 11.6), and
the bytes of ROM and EEPROM records (Tables 11-5 to 11-8). -/

namespace Sys2Proof.Machine

/-! ### Names by their bytes -/

/-- A yes/no byte; any other value is outside those defined (R195). -/
def boolOfByte (b : Byte) : Option Bool :=
  match b.toNat with
  | 0 => some false
  | 1 => some true
  | _ => none

/-- An alignment by its name byte (R195). -/
def alignmentOfByte (b : Byte) : Option Alignment :=
  match b.toNat with
  | 0 => some .flushLeft
  | 1 => some .center
  | 2 => some .flushRight
  | 3 => some .justify
  | _ => none

/-- The name byte of an alignment. -/
def Alignment.byte : Alignment → Byte
  | .flushLeft => 0
  | .center => 1
  | .flushRight => 2
  | .justify => 3

/-- A line spacing: 8, 12 or 16 platen steps (Table 1-12). -/
def spacingOfByte (b : Byte) : Option Nat :=
  if b.toNat = 8 ∨ b.toNat = 12 ∨ b.toNat = 16 then some b.toNat else none

/-- A release mode by its name byte. -/
def releaseModeOfByte (b : Byte) : Option ReleaseMode :=
  match b.toNat with
  | 0 => some .direct
  | 1 => some .word
  | _ => none

/-- The name byte of a release mode. -/
def ReleaseMode.byte : ReleaseMode → Byte
  | .direct => 0
  | .word => 1

/-- A decimal character: 46 or 44 (Table 1-12). -/
def decimalOfByte (b : Byte) : Option Nat :=
  if b.toNat = 46 ∨ b.toNat = 44 then some b.toNat else none

/-- A number in a closed range. -/
def rangeOfByte (lo hi : Nat) (b : Byte) : Option Nat :=
  if lo ≤ b.toNat ∧ b.toNat ≤ hi then some b.toNat else none

/-- A tab kind by its name byte (Table 11-2). -/
def tabKindOfByte (b : Byte) : Option TabKind :=
  match b.toNat with
  | 0 => some .left
  | 1 => some .decimal
  | _ => none

/-- A sensor by its name byte (Table 9-1 order). -/
def sensorOfByte (b : Byte) : Option Sensor :=
  match b.toNat with
  | 0 => some .cover
  | 1 => some .paper
  | 2 => some .ribbonEnd
  | 3 => some .tapeEnd
  | 4 => some .carriageHome
  | 5 => some .wheelIndex
  | _ => none

/-- An edge select by its name byte. -/
def edgeOfNat : Nat → Option EdgeSelect
  | 0 => some .rise
  | 1 => some .fall
  | 2 => some .both
  | _ => none

/-- The name value of an edge select. -/
def EdgeSelect.value : EdgeSelect → Nat
  | .rise => 0
  | .fall => 1
  | .both => 2

/-- A lamp assignment by its name byte (Table 11-2). -/
def lampFunctionOfByte (b : Byte) : Option LampFunction :=
  match b.toNat with
  | 0 => some .host
  | 1 => some .fault
  | 2 => some .flaggedWord
  | 3 => some .typeAheadHigh
  | 4 => some .standby
  | _ => none

/-- The name byte of a lamp assignment. -/
def LampFunction.byte : LampFunction → Byte
  | .host => 0
  | .fault => 1
  | .flaggedWord => 2
  | .typeAheadHigh => 3
  | .standby => 4

/-- A beeper pattern by its name byte (Table 9-5 order). -/
def patternOfByte (b : Byte) : Option BeepPattern :=
  match b.toNat with
  | 0 => some .short
  | 1 => some .double
  | 2 => some .long
  | 3 => some .triple
  | _ => none

/-- The name byte of a mechanism state (R195). -/
def MechState.byte : MechState → Byte
  | .off => 0
  | .homing => 1
  | .ready => 2
  | .busy => 3
  | .suspended => 4
  | .interlocked => 5
  | .wheelWait => 6
  | .fault => 7
  | .standby => 8

/-- The suspend reason set as a byte. -/
def SuspendSet.byte (s : SuspendSet) : Byte :=
  BitVec.ofNat 8 (s.paper.toNat + 2 * s.ribbon.toNat + 4 * s.tape.toNat)

/-- The six sensor levels as a set byte (Table 9-1 order). -/
def levelsByte (v : SensorLevels) : Byte :=
  BitVec.ofNat 8 (v.cover.toNat + 2 * v.paper.toNat + 4 * v.ribbonEnd.toNat + 8 * v.tapeEnd.toNat
    + 16 * v.carriageHome.toNat + 32 * v.wheelIndex.toNat)

/-- The kind byte of a wheel table (Table 11-3). -/
def WheelKind.byte : WheelKind → Byte
  | .p10 => 0
  | .p12 => 1
  | .p15 => 2
  | .ps => 3

/-- A wheel kind by its byte. -/
def wheelKindOfNat : Nat → Option WheelKind
  | 0 => some .p10
  | 1 => some .p12
  | 2 => some .p15
  | 3 => some .ps
  | _ => none

/-! ### The code table -/

/-- Base letter of a code 160..255, 1..26 for a..z, 0 for none (Table 11-9). -/
def baseLetter (c : Nat) : Nat :=
  if 192 ≤ c ∧ c ≤ 197 ∨ 224 ≤ c ∧ c ≤ 229 then 1
  else if c = 199 ∨ c = 231 then 3
  else if 200 ≤ c ∧ c ≤ 203 ∨ 232 ≤ c ∧ c ≤ 235 then 5
  else if 204 ≤ c ∧ c ≤ 207 ∨ 236 ≤ c ∧ c ≤ 239 then 9
  else if c = 209 ∨ c = 241 then 14
  else if 210 ≤ c ∧ c ≤ 214 ∨ c = 216 ∨ 242 ≤ c ∧ c ≤ 246 ∨ c = 248 then 15
  else if 217 ≤ c ∧ c ≤ 220 ∨ 249 ≤ c ∧ c ≤ 252 then 21
  else if c = 221 ∨ c = 253 ∨ c = 255 then 25
  else 0

/-- The apostrophe (R3). -/
abbrev apostrophe : Nat := 39

/-- A letter code other than the apostrophe (R3). -/
def isLetterCode (c : Nat) : Bool :=
  decide (65 ≤ c ∧ c ≤ 90) || decide (97 ≤ c ∧ c ≤ 122) || decide (160 ≤ c ∧ baseLetter c ≠ 0)

/-- The folded value of a letter cell's code: 1..26, or 27 for the apostrophe (R122). -/
def foldCode (c : Nat) : Nat :=
  if c = apostrophe then 27
  else if 65 ≤ c ∧ c ≤ 90 then c - 64
  else if 97 ≤ c ∧ c ≤ 122 then c - 96
  else baseLetter c

/-- A folded value as its code in replies: lowercase, 39 for 27 (R133, R195). -/
def unfoldValue (v : Nat) : Byte := if v = 27 then 39 else BitVec.ofNat 8 (v + 96)

/-- A word in a reply: its count, then its codes (R195). -/
def wordBytes (letters : List Nat) : List Byte := BitVec.ofNat 8 letters.length :: letters.map unfoldValue

/-- A digit 48..57 (R123). -/
def isDigit (c : Nat) : Bool := decide (48 ≤ c ∧ c ≤ 57)

/-- The strict order of folded words (R135a): the smaller first differing value first; a word that begins
another sorts before it. -/
def wordLess : List Nat → List Nat → Bool
  | [], [] => false
  | [], _ :: _ => true
  | _ :: _, [] => false
  | a :: as, b :: bs => decide (a < b) || (decide (a = b) && wordLess as bs)

/-- Strictly sorted, hence with no word twice (R135a). -/
def wordsSorted : List (List Nat) → Bool
  | a :: b :: rest => wordLess a b && wordsSorted (b :: rest)
  | _ => true

/-- Insert a word at its sorted place (R134, R135a). -/
def insertWord (w : List Nat) : List (List Nat) → List (List Nat)
  | [] => [w]
  | x :: xs => if wordLess w x then w :: x :: xs else x :: insertWord w xs

/-! ### Bytes of records -/

/-- The value of byte `i`. -/
def byteAt (bs : List Byte) (i : Nat) : Nat := (bs.getD i 0).toNat

/-- Two bytes, low first (R195). -/
def halfAt (bs : List Byte) (i : Nat) : Nat := byteAt bs i + 256 * byteAt bs (i + 1)

/-- Three bytes, low first (R195). -/
def addressAt (bs : List Byte) (i : Nat) : Nat := byteAt bs i + 256 * byteAt bs (i + 1) + 65536 * byteAt bs (i + 2)

/-- The checks of a wheel table record, those that R145 lists and no other: the space width, the underscore code and the composition
codes are taken as they stand, outside the ranges of Table 7-1 too (DESIGN CHOICE, unsafe: log 51). -/
def tableRecordValid (id : Nat) (bs : List Byte) : Bool :=
  decide (byteAt bs 0 = id) && (wheelKindOfNat (byteAt bs 1)).isSome
    && (List.range 100).all (fun p =>
      let code := byteAt bs (4 + 3 * p)
      let width := byteAt bs (5 + 3 * p)
      let level := byteAt bs (6 + 3 * p)
      !(decide (1 ≤ code) && decide (code ≤ 31)) && decide (1 ≤ level) && decide (level ≤ 7)
        && (decide (byteAt bs 1 ≠ 3) || (decide (5 ≤ width) && decide (width ≤ 15))))
    && decide (byteAt bs 304 ≤ 16)

/-- The table in a wheel table record (Table 11-8), when it passes the checks of R145. -/
def parseTable (id : Nat) (bs : List Byte) : Option WheelTable :=
  if tableRecordValid id bs then
    some
      { id := id
        kind := (wheelKindOfNat (byteAt bs 1)).getD .p10
        spaceWidth := byteAt bs 2
        underscore := byteAt bs 3
        petals := (List.range 100).map fun p =>
          { code := byteAt bs (4 + 3 * p), width := byteAt bs (5 + 3 * p), level := byteAt bs (6 + 3 * p) }
        compositions := (List.range (byteAt bs 304)).map fun i =>
          { composite := byteAt bs (305 + 3 * i), base := byteAt bs (306 + 3 * i), accent := byteAt bs (307 + 3 * i) } }
  else none

/-- The header in a ROM header read (R151, Table 11-7), when it is good. -/
def parseHeader (bs : List Byte) : Option RomHeader :=
  let wheels := (List.range 24).map fun i => (byteAt bs (8 + 4 * i), addressAt bs (9 + 4 * i))
  if bs.take 4 = [0x4C, 0x4A, 0x44, 0x31]
      ∧ addressAt bs 5 ≤ Config.maxDirOffset
      ∧ wheels.all (fun w => decide (w.1 ≤ 31)) = true
      ∧ (List.range 96).all (fun i => decide (byteAt bs (104 + i) = baseLetter (160 + i))) = true then
    some { revision := byteAt bs 4, directory := addressAt bs 5, wheels := wheels }
  else none

/-- A record's bytes sum to 0 modulo 256 (R152). -/
def recordSums (bs : List Byte) : Bool := decide (byteSum bs = 0)

/-- What a good settings record gives (R152, R156). -/
structure SettingsRecord where
  line : LineSettings
  impression : Nat
  spellEnable : Bool
  beeperEnable : Bool
  idleMinutes : Nat
  config : SensorSetups
  lamps : List LampFunction
  deriving DecidableEq, Repr

/-- The defaults of R156 (Tables 1-12 and 9-8). -/
def SettingsRecord.defaults : SettingsRecord where
  line := {}
  impression := 2
  spellEnable := true
  beeperEnable := true
  idleMinutes := 10
  config := {}
  lamps := List.replicate 4 .host

/-- Tab stops in strictly ascending order of position (R25). -/
def stopsSorted : List TabStop → Bool
  | a :: b :: rest => decide (a.position < b.position) && stopsSorted (b :: rest)
  | _ => true

/-- One sensor's half byte (Table 11-5): edge select in its two lowest bits, then change, then wake. -/
def setupOfNibble (n : Nat) : Option SensorSetup :=
  (edgeOfNat (n % 4)).map fun e => { edge := e, change := n / 4 % 2 == 1, wake := n / 8 % 2 == 1 }

/-- The half byte of a sensor's configuration. -/
def SensorSetup.nibble (c : SensorSetup) : Nat := c.edge.value + 4 * c.change.toNat + 8 * c.wake.toNat

/-- The six configurations of three sensor bytes, two sensors each (Table 11-5). -/
def setupsOfBytes (a b c : Nat) : Option SensorSetups := do
  let s0 ← setupOfNibble (a % 16)
  let s1 ← setupOfNibble (a / 16)
  let s2 ← setupOfNibble (b % 16)
  let s3 ← setupOfNibble (b / 16)
  let s4 ← setupOfNibble (c % 16)
  let s5 ← setupOfNibble (c / 16)
  some { cover := s0, paper := s1, ribbonEnd := s2, tapeEnd := s3, carriageHome := s4, wheelIndex := s5 }

/-- The margin pair of R26. -/
def marginsValid (left right : Nat) : Bool :=
  decide (left < right) && decide (right ≤ 1560) && decide (120 ≤ right - left)

/-- The settings in a settings record read back (Table 11-5), when the record is good (R152; padding: log 16). Bits
11 to 14 of a tab stop's two bytes, which Table 11-5 does not name, are ignored (DESIGN CHOICE, unsafe: log 43). -/
def parseSettings (bs : List Byte) : Option SettingsRecord := do
  let alignment ← alignmentOfByte (bs.getD 4 0)
  let spacing ← spacingOfByte (bs.getD 5 0)
  let mode ← releaseModeOfByte (bs.getD 48 0)
  let enable ← boolOfByte (bs.getD 49 0)
  let decimal ← decimalOfByte (bs.getD 50 0)
  let beeper ← boolOfByte (bs.getD 51 0)
  let impression ← rangeOfByte 1 4 (bs.getD 47 0)
  let bell ← rangeOfByte 0 120 (bs.getD 52 0)
  let idle ← rangeOfByte 0 60 (bs.getD 53 0)
  let config ← setupsOfBytes (byteAt bs 54) (byteAt bs 55) (byteAt bs 56)
  let l0 ← lampFunctionOfByte (bs.getD 57 0)
  let l1 ← lampFunctionOfByte (bs.getD 58 0)
  let l2 ← lampFunctionOfByte (bs.getD 59 0)
  let l3 ← lampFunctionOfByte (bs.getD 60 0)
  let tabs : List TabStop := (List.range (byteAt bs 6)).map fun i =>
    { position := halfAt bs (7 + 2 * i) % 2048
      kind := if halfAt bs (7 + 2 * i) / 32768 = 1 then .decimal else .left }
  if recordSums bs && marginsValid (halfAt bs 0) (halfAt bs 2) && decide (byteAt bs 6 ≤ Config.maxTabs)
      && tabs.all (fun t => decide (t.position ≤ Config.rightStop)) && stopsSorted tabs
      && decide (halfAt bs 61 = 0) then
    some
      { line :=
          { left := halfAt bs 0, right := halfAt bs 2, alignment := alignment, spacing := spacing
            releaseMode := mode, decimalChar := decimal, bellWidth := bell, tabs := tabs }
        impression := impression, spellEnable := enable, beeperEnable := beeper, idleMinutes := idle
        config := config, lamps := [l0, l1, l2, l3] }
  else none

/-- A tab stop in the settings record (Table 11-5): position in bits 0..10, kind in bit 15. -/
def tabHalf (t : TabStop) : Nat := t.position + (match t.kind with | .left => 0 | .decimal => 32768)

/-- The check byte that makes a record sum to 0 (R152). -/
def withCheck (bs : List Byte) : List Byte := bs ++ [- byteSum bs]

/-- The 64 bytes of the settings record (Table 11-5). -/
def buildSettings (r : SettingsRecord) : List Byte :=
  withCheck
    (bytes16 r.line.left ++ bytes16 r.line.right
      ++ [r.line.alignment.byte, BitVec.ofNat 8 r.line.spacing, BitVec.ofNat 8 r.line.tabs.length]
      ++ ((List.range 20).flatMap fun i => bytes16 ((r.line.tabs[i]?.map tabHalf).getD 0))
      ++ [BitVec.ofNat 8 r.impression, r.line.releaseMode.byte, yesNo r.spellEnable
        , BitVec.ofNat 8 r.line.decimalChar, yesNo r.beeperEnable, BitVec.ofNat 8 r.line.bellWidth
        , BitVec.ofNat 8 r.idleMinutes
        , BitVec.ofNat 8 (r.config.cover.nibble + 16 * r.config.paper.nibble)
        , BitVec.ofNat 8 (r.config.ribbonEnd.nibble + 16 * r.config.tapeEnd.nibble)
        , BitVec.ofNat 8 (r.config.carriageHome.nibble + 16 * r.config.wheelIndex.nibble)]
      ++ r.lamps.map LampFunction.byte ++ [0, 0])

/-- One 25-byte entry of the user-list record (Table 11-6). -/
def listEntry (w : List Nat) : List Byte :=
  BitVec.ofNat 8 w.length :: (w.map (BitVec.ofNat 8) ++ List.replicate (24 - w.length) 0)

/-- The 1024 bytes of the user-list record (Table 11-6). -/
def buildList (words : List (List Nat)) : List Byte :=
  withCheck
    (BitVec.ofNat 8 words.length :: (words.flatMap listEntry ++ List.replicate (25 * (40 - words.length)) 0
      ++ List.replicate 22 0))

/-- The word of entry `i` of a user-list record, when the entry is in range (R152; padding: log 16). -/
def parseEntry (bs : List Byte) (i : Nat) : Option (List Nat) :=
  let at0 := 1 + 25 * i
  let len := byteAt bs at0
  let vals := (List.range len).map fun j => byteAt bs (at0 + 1 + j)
  if 2 ≤ len ∧ len ≤ 24 ∧ vals.all (fun v => decide (1 ≤ v ∧ v ≤ 27)) = true
      ∧ ((bs.drop (at0 + 1 + len)).take (24 - len)).all (· == 0) = true then some vals
  else none

/-- The words in a user-list record read back (Table 11-6), when the record is good (R152). -/
def parseList (bs : List Byte) : Option (List (List Nat)) := do
  let words ← (List.range (byteAt bs 0)).mapM (parseEntry bs)
  if recordSums bs && decide (byteAt bs 0 ≤ Config.maxUserWords) && wordsSorted words
      && ((bs.drop (1 + 25 * byteAt bs 0)).take (1022 - 25 * byteAt bs 0)).all (· == 0) then some words
  else none

end Sys2Proof.Machine
end

