-- ==== Sys2Proof/Machine/Layout.lean ====
section
/-! DEFINITION. The Layout Unit (02_layout_and_escapement.md): widths, impression lists, placement, decimal
segments, column number; and the wheel-table questions they ask (R141). -/

namespace Sys2Proof.Machine

/-! ### Wheel tables -/

/-- The lowest-numbered petal holding a code, from petal `i` on (R30, R141). -/
def findPetal (code : Nat) : Nat → List Petal → Option (Nat × Petal)
  | _, [] => none
  | i, p :: ps => if p.code = code then some (i, p) else findPetal code (i + 1) ps

/-- A code's petal (R30, R141). An empty petal, whose entry is 0, holds no code. -/
def WheelTable.petalOf (t : WheelTable) (code : Nat) : Option (Nat × Petal) :=
  if code = 0 then none else findPetal code 0 t.petals

/-- A code is on the wheel (R141). -/
def WheelTable.onWheel (t : WheelTable) (code : Nat) : Bool := (t.petalOf code).isSome

/-- The first composition entry of a composite code (R141). -/
def WheelTable.compositionOf (t : WheelTable) (code : Nat) : Option Composition :=
  t.compositions.find? (fun c => c.composite == code)

/-- A GLYPH key's code can be struck: on a petal, or a composite of two codes on petals (R12). -/
def WheelTable.glyphAvailable (t : WheelTable) (code : Nat) : Bool :=
  t.onWheel code ||
    match t.compositionOf code with
    | some c => t.onWheel c.base && t.onWheel c.accent
    | none => false

/-- The pitch width of a fixed-pitch wheel (Table 0-5). -/
def WheelKind.pitch : WheelKind → Option Nat
  | .p10 => some 12
  | .p12 => some 10
  | .p15 => some 8
  | .ps => none

/-- The width of a space (Table 2-1), which is also R42's nominal space width. -/
def WheelTable.spaceWidthOf (t : WheelTable) : Nat := t.kind.pitch.getD t.spaceWidth

/-- The width of a glyph (Table 2-1). -/
def WheelTable.glyphWidth (t : WheelTable) (code : Nat) : Nat :=
  match t.kind.pitch with
  | some w => w
  | none =>
    match t.petalOf code with
    | some p => p.2.width
    | none =>
      match t.compositionOf code with
      | some c => ((t.petalOf c.base).map (·.2.width)).getD 0
      | none => 0

/-! ### Impression lists -/

/-- The impressions of a code's petal, one or none (R32, R33). -/
def codeImpression (t : WheelTable) (code : Nat) (offset : Nat) : List Impression :=
  match t.petalOf code with
  | some (n, p) => [{ petal := n, offset := offset, level := p.level }]
  | none => []

/-- The codes of the glyph part, in order (R33). -/
def glyphCodes (t : WheelTable) (c : Cell) : List Nat :=
  if c.kind = .glyph then
    if t.onWheel c.code then [c.code]
    else
      match t.compositionOf c.code with
      | some m => [m.base, m.accent]
      | none => [c.code]
  else []

/-- The offsets of the underscores over width `w` with underscore width `u` (R35). -/
def underscoreOffsets (w u : Nat) : List Nat :=
  if w ≤ u then [0] else (List.range ((w + u - 1) / u)).map fun i => min (i * u) (w - u)

/-- The underscore width (R35). -/
def underscoreWidth (t : WheelTable) : Nat :=
  t.kind.pitch.getD (((t.petalOf t.underscore).map (·.2.width)).getD 0)

/-- The underscore part without repeats (R35); empty when the underscore is on no petal (R32). -/
def underscorePart (t : WheelTable) (c : Cell) : List Impression :=
  if c.underline && t.onWheel t.underscore then
    (underscoreOffsets c.width (underscoreWidth t)).flatMap (codeImpression t t.underscore)
  else []

/-- Each impression followed by its bold repeat, one unit to the right (R34). -/
def boldRepeats (bold : Bool) (l : List Impression) : List Impression :=
  if bold then l.flatMap fun i => [i, { i with offset := i.offset + 1 }] else l

/-- The impression list of a cell at its release (R32 to R36). What R32 leaves out, a code on no petal, does not count in R36's test
for more than 8: the order of the two is not stated (DESIGN CHOICE, unsafe: log 46). With a PS space width outside Table 7-1, which R145
does not check, an underlined SPACE may get more than 8: the model builds them all (DESIGN CHOICE, unsafe: log 51). -/
def buildImpressions (t : WheelTable) (c : Cell) : List Impression :=
  let glyph := boldRepeats c.bold ((glyphCodes t c).flatMap fun code => codeImpression t code 0)
  let under := underscorePart t c
  let whole := glyph ++ boldRepeats c.bold under
  if 8 < whole.length then glyph ++ under else whole

/-- A code the list needs is on no petal (R32). -/
def missingImpression (t : WheelTable) (c : Cell) : Bool :=
  (glyphCodes t c).any (fun code => !t.onWheel code) || (c.underline && !t.onWheel t.underscore)

/-- A cell that is struck: a GLYPH, or a SPACE with underline (R32, Table 3-2). -/
def Cell.strikes (c : Cell) : Bool := c.kind == .glyph || (c.kind == .space && c.underline)

/-- A RETURN or PARA_RETURN cell. -/
def Cell.isReturn (c : Cell) : Bool := c.kind == .ret || c.kind == .paraRet

/-! ### Lines: widths, ends and the typing point -/

/-- The sum of cell widths. -/
def cellsWidth (cs : List Cell) : Nat := (cs.map (·.width)).sum

/-- The natural width of a line: the sum of the widths of all its cells (R5). -/
def Line.naturalWidth (l : Line) : Nat := cellsWidth l.cells

/-- The cell of a sequence in a line. -/
def Line.find (l : Line) (seq : Nat) : Option Cell := l.cells.find? (fun c => c.seq == seq)

/-- The widths of the cells of a segment, TAB left out. -/
def segmentWidth (l : Line) (g : Segment) : Nat :=
  cellsWidth (l.cells.filter fun c => g.cells.contains c.seq)

/-- The typing point (R9, Table 1-6). -/
def Line.typingPoint (l : Line) : Nat :=
  match l.cells.getLast? with
  | none => l.left
  | some last =>
    match l.segment with
    | some g => g.point + ((l.find g.tab).map (·.width)).getD 0 + segmentWidth l g
    | none =>
      match l.alignment with
      | .flushLeft => last.position.getD l.left + last.width
      | .center | .flushRight | .justify => l.left + l.naturalWidth

/-- The start of a segment whose cells are `w` wide: S - w, but not less than P (R45, R46). -/
def segmentStart (g : Segment) (w : Nat) : Nat := max g.point (g.stop - w)

/-- Change the cell of a sequence in a list of cells. -/
def mapSeq (seq : Nat) (f : Cell → Cell) (cs : List Cell) : List Cell :=
  cs.map fun c => if c.seq = seq then f c else c

/-- Set the width of a segment's TAB cell to start - P (R45, R46). -/
def Line.withTabWidth (l : Line) (g : Segment) (start : Nat) : Line :=
  { l with cells := mapSeq g.tab (fun c => { c with width := start - g.point }) l.cells }

/-- Recompute the provisional start of an open segment (R45). -/
def Line.refreshSegment (l : Line) : Line :=
  match l.segment with
  | none => l
  | some g => l.withTabWidth g (segmentStart g (segmentWidth l g))

/-- Place the HELD cells that satisfy `p` edge to edge from `at0`, in entry order. -/
def placeFrom (p : Cell → Bool) : Nat → List Cell → List Cell
  | _, [] => []
  | at0, c :: cs =>
    if p c then { c with position := some at0 } :: placeFrom p (at0 + c.width) cs
    else c :: placeFrom p at0 cs

/-- Whether fixing the start of the open segment clamps it at P (R46). -/
def Line.segmentClamped (l : Line) : Bool :=
  match l.segment with
  | none => false
  | some g => decide (g.stop < segmentWidth l g + g.point)

/-- The end of an open segment (R46, R47, R52): the start and the TAB width are fixed, the TAB of a JUSTIFY
line takes position P, the cells are placed edge to edge, DECIMAL holds are removed, the record is removed. -/
def Line.endSegment (l : Line) : Line :=
  match l.segment with
  | none => l
  | some g =>
    let start := segmentStart g (segmentWidth l g)
    let l := l.withTabWidth g start
    let cells := mapSeq g.tab (fun c => { c with position := some g.point }) l.cells
    let cells := placeFrom (fun c => g.cells.contains c.seq) start cells
    { l with
      cells := cells.map fun c => if g.cells.contains c.seq then { c with holds := { c.holds with decimal := false } } else c
      segment := none }

/-! ### Gap extras -/

/-- The extra of each cell of a list, given the extras left to right, for the SPACE cells between the
first and the last GLYPH cell (R42, R43). `open` says a GLYPH has been passed. -/
def spreadExtras : Bool → List Nat → List Cell → List Nat
  | _, _, [] => []
  | seen, extras, c :: cs =>
    if c.kind = .space ∧ seen = true ∧ cs.any (fun d => d.kind == .glyph) = true then
      extras.headD 0 :: spreadExtras seen extras.tail cs
    else 0 :: spreadExtras (seen || c.kind == .glyph) extras cs

/-- The number of SPACE cells between the first and the last GLYPH cell (R42). -/
def interiorSpaces : Bool → List Cell → Nat
  | _, [] => 0
  | seen, c :: cs =>
    (if c.kind = .space ∧ seen = true ∧ cs.any (fun d => d.kind == .glyph) = true then 1 else 0)
      + interiorSpaces (seen || c.kind == .glyph) cs

/-- The gap extra of each cell of a line, by its placement (R31). -/
def Line.cellExtras (l : Line) : List Nat :=
  spreadExtras false (l.placement.getD []) l.cells

/-- The end of the escapement of the last cell that is not HELD, or the left margin (R31, R37, R117). -/
def Line.releasedEnd (l : Line) : Nat :=
  (l.cells.zip l.cellExtras).foldl
    (fun e ce => if ce.1.state ≠ .held ∧ ce.1.isReturn = false then ce.1.position.getD l.left + ce.1.width + ce.2 else e) l.left

/-! ### Placement at a line's close -/

/-- The trailing SPACE cells are those after the last cell of another kind (R39): how many they are. In a line of SPACE cells only
there is no such cell and R39 does not say which they are: all of them count as trailing (DESIGN CHOICE, unsafe: log 37). -/
def trailingSpaces (cs : List Cell) : Nat := (cs.reverse.takeWhile fun c => c.kind == .space).length

/-- Place body cells from a start with their extras; answers the cells and the end of the last one (R40 to R43). -/
def placeBody : Nat → List (Cell × Nat) → List Cell
  | _, [] => []
  | at0, (c, x) :: cs => { c with position := some at0 } :: placeBody (at0 + c.width + x) cs

/-- Place trailing spaces behind the body: each at the end of the cell before it, at most 1560 less its width (R39). -/
def placeTrailing : Nat → List Cell → List Cell
  | _, [] => []
  | at0, c :: cs =>
    let p := min at0 (Config.rightStop - c.width)
    { c with position := some p } :: placeTrailing (p + c.width) cs

/-- Place the non-return cells of a held line from `start` with the given extras, then the trailing spaces (R39). -/
def placeHeldLine (start : Nat) (extras : List Nat) (cells : List Cell) : List Cell :=
  let n := cells.length - trailingSpaces cells
  let body := cells.take n
  let placed := placeBody start (body.zip (spreadExtras false extras body))
  let endAt := match placed.getLast? with
    | some c => c.position.getD start + c.width
    | none => start
  placed ++ placeTrailing endAt (cells.drop n)

/-- The extras of a justified line: g gaps sharing E units, the leftmost r gaps one more (R43). -/
def justifyExtras (g e : Nat) : List Nat :=
  (List.range g).map fun i => if i < e % g then e / g + 1 else e / g

/-- The outcome of placing a line: its placed cells, its gap extras, and whether JUSTIFY_SKIP is set. -/
structure Placed where
  cells : List Cell
  extras : List Nat
  skip : Bool
  deriving DecidableEq, Repr

/-- Placement of the non-return cells of a closing JUSTIFY line (R42 to R44). A line without a GLYPH cell sets no JUSTIFY_SKIP, with a
TAB or a decimal segment in it too: R42 says so, where R47 has every JUSTIFY line with a segment set it (DESIGN CHOICE, unsafe: log 56). -/
def placeJustify (l : Line) (cells : List Cell) (para : Bool) (nominal : Nat) : Placed :=
  let body := cells.take (cells.length - trailingSpaces cells)
  let w := cellsWidth body
  let t := l.right - l.left
  let g := interiorSpaces false cells
  let flush : Bool → Placed := fun skip => { cells := placeHeldLine l.left [] cells, extras := [], skip := skip }
  if para || !(cells.any fun c => c.kind == .glyph) then flush false
  else if g = 0 ∨ t < w ∨ (cells.any fun c => c.kind == .tab) = true ∨ 2 * nominal < (t - w + g - 1) / g then flush true
  else { cells := placeHeldLine l.left (justifyExtras g (t - w)) cells, extras := justifyExtras g (t - w), skip := false }

/-- Placement of the non-return cells of a closing line (R37 to R44). A line with a released cell is placed
as FLUSH_LEFT: its HELD cells follow the last released cell (R37). -/
def placeCells (l : Line) (cells : List Cell) (para : Bool) (nominal : Nat) : Placed :=
  let keep := { cells := cells, extras := [], skip := false : Placed }
  if l.alignment = .flushLeft then keep
  else if (cells.any fun c => c.state != .held) = true then
    { keep with cells := placeFrom (fun c => c.state == .held) ({ l with cells := cells } : Line).releasedEnd cells }
  else
    let body := cells.take (cells.length - trailingSpaces cells)
    let w := cellsWidth body
    let t := l.right - l.left
    match l.alignment with
    | .flushLeft => keep
    | .center =>
      { keep with cells := placeHeldLine (if w ≤ t then l.left + (t - w) / 2 else l.left) [] cells }
    | .flushRight => { keep with cells := placeHeldLine (if w ≤ t then l.right - w else l.left) [] cells }
    | .justify => placeJustify l cells para nominal

/-- Close the placement of a line whose last cell is its return (R37, R38): the other cells are placed, then
the return at the end of the last of them. Answers the line and whether JUSTIFY_SKIP is set. -/
def Line.place (l : Line) (nominal : Nat) : Line × Bool :=
  match l.cells.getLast? with
  | none => (l, false)
  | some r =>
    let p := placeCells l l.cells.dropLast (r.kind == .paraRet) nominal
    let at0 := match p.cells.getLast? with
      | some c => c.position.getD l.left + c.width
      | none => l.left
    ({ l with cells := p.cells ++ [{ r with position := some at0 }], placement := some p.extras }, p.skip)

/-! ### The column number -/

/-- The column number of a typing point (R48). -/
def columnNumber (t : WheelTable) (l : Line) : Nat :=
  max 1 (min 999 ((l.typingPoint - l.left) / t.kind.pitch.getD 12 + 1))

end Sys2Proof.Machine
end

