-- ==== Sys2Proof/Machine/Ops.lean ====
section
/-! DEFINITION. The named operations over the Line Store that the families share: counts, cells by
sequence, line drop and reclaiming (R7, R8), the release pass (R55 to R57), DONE lines (R6), type-ahead
events (R59), DRAIN marks (R61), replies (R189, R191). -/

namespace Sys2Proof.Machine

/-! ### The table in force -/

/-- The wheel table in force: the active table, or during WHEEL_WAIT the table that was active before it began (R12, R30, R161). The two
differ only when a load that outlived its homing or an earlier decision completes in that WHEEL_WAIT (log 50). -/
def tableInForce (s : State) : WheelTable :=
  match s.seq.mech, s.mem.wait with
  | .wheelWait, some w => w.table
  | _, _ => s.mem.active

/-! ### The line list -/

/-- The line list, oldest first (R7). -/
def LineStore.lines (s : LineStore) : List Line := s.earlier ++ [s.openLine]

/-- The cells of the store in entry order (R2). -/
def LineStore.cells (s : LineStore) : List Cell := s.lines.flatMap (·.cells)

/-- Change every line. -/
def LineStore.mapLines (f : Line → Line) (s : LineStore) : LineStore :=
  { s with earlier := s.earlier.map f, openLine := f s.openLine }

/-- Change every cell of a line. -/
def Line.mapCells (f : Cell → Cell) (l : Line) : Line := { l with cells := l.cells.map f }

/-- Change every cell of the store. -/
def LineStore.mapCells (f : Cell → Cell) (s : LineStore) : LineStore := s.mapLines (Line.mapCells f)

/-- Change the cell of a sequence. -/
def LineStore.mapCell (seq : Nat) (f : Cell → Cell) (s : LineStore) : LineStore :=
  s.mapCells fun c => if c.seq = seq then f c else c

/-- The cell of a sequence. -/
def LineStore.findCell (s : LineStore) (seq : Nat) : Option Cell := s.cells.find? (fun c => c.seq == seq)

/-- Free cells of the pool (R4). -/
def LineStore.freeCells (s : LineStore) : Nat := Config.poolCells - s.cells.length

/-- A cell that the unprinted count counts (R58). -/
def Cell.unprinted (c : Cell) : Bool := !c.isReturn && c.state != .printed

/-- The unprinted count (R58). -/
def LineStore.unprinted (s : LineStore) : Nat := s.cells.countP Cell.unprinted

/-- Some cell of the store is HELD. -/
def LineStore.anyHeld (s : LineStore) : Bool := s.cells.any fun c => c.state == .held

/-- The number after `n`, 1 after 65535 (R2, R23). -/
def nextNumber (n : Nat) : Nat := if n = 65535 then 1 else n + 1

/-- The first number from `n` on that is not in use (R2, R23); the fuel is one more than the numbers in use. -/
def freeNumber (used : List Nat) : Nat → Nat → Nat
  | 0, n => n
  | fuel + 1, n => if used.contains n then freeNumber used fuel (nextNumber n) else n

/-- The sequence the next cell receives (R2). -/
def LineStore.newSeq (s : LineStore) : Nat :=
  let used := s.cells.map (·.seq)
  freeNumber used (used.length + 1) s.nextSeq

/-- The number the next word receives (R23). -/
def LineStore.newWordNumber (s : LineStore) : Nat :=
  let used := s.cells.filterMap fun c => c.word.map (·.number)
  freeNumber used (used.length + 1) s.nextWord

/-- A CLOSED line all of whose cells are PRINTED is DONE (R6). -/
def Line.settleDone (l : Line) : Line :=
  if l.state = .closed ∧ (l.cells.all fun c => c.state == .printed) = true then { l with state := .done } else l

/-- Bring the states of the earlier lines up to date (R6). -/
def LineStore.settleDone (s : LineStore) : LineStore := { s with earlier := s.earlier.map Line.settleDone }

/-- Clear the reach flag of the line before the OPEN line (R6, R89, R93). -/
def clearReachBefore (s : State) : State :=
  match s.store.earlier.getLast? with
  | none => s
  | some l => { s with store := { s.store with earlier := s.store.earlier.dropLast ++ [{ l with reach := false }] } }

/-! ### Spelling state touched by removals (R132) -/

/-- The numbers of the words of some cells, each once. -/
def wordNumbers (cs : List Cell) : List Nat := (cs.filterMap fun c => c.word.map (·.number)).eraseDups

/-- A word's check is withdrawn when WAITING, made stale when READING, and its flag removed (R132). -/
def withdrawWord (n : Nat) (s : State) : State :=
  let reading := s.spell.queue.any fun r => r.word.number == n && r.reading
  { s with
    spell :=
      { s.spell with
        queue := s.spell.queue.filter fun r => r.word.number != n
        lookup := if reading then s.spell.lookup.map fun k => { k with stale := true } else s.spell.lookup
        flagged := s.spell.flagged.filter fun f => f.word.number != n } }

/-- The letter cells that remain of a word cut by a line drop or DISCARD: PENDING and MISS become SKIP (R132). -/
def skipRemaining (n : Nat) (s : State) : State :=
  { s with
    store := s.store.mapCells fun c =>
      if c.word.map (·.number) = some n ∧ (c.mark = some .pending ∨ c.mark = some .miss) then
        { c with mark := some .skip, holds := { c.holds with word := false } }
      else c }

/-- A line drop or DISCARD took letter cells of these words out of the store (R132). -/
def cutWords (ns : List Nat) (s : State) : State :=
  ns.foldl (fun s n => skipRemaining n (withdrawWord n s)) s

/-! ### Dropping and reclaiming lines (R7, R8) -/

/-- How many of the oldest lines reclaiming drops until `need` cells are free, given the free count and the
lines that may be dropped, oldest first (R8). An oldest line that is DONE is dropped though the next is not, as R8's procedure has it;
R8's last sentence on this would keep it (DESIGN CHOICE, unsafe: log 54). -/
def reclaimCount (need : Nat) : Nat → List Line → Nat
  | _, [] => 0
  | free, l :: ls =>
    if need ≤ free then 0
    else if l.state = .done then 1 + reclaimCount need (free + l.cells.length) ls
    else 0

/-- How many of the oldest lines a key that needs `need` free cells drops: for a return against a full line
list the oldest first (R7), then those reclaimed, never the line before the OPEN line (R8). -/
def linesToDrop (isReturn : Bool) (need : Nat) (s : LineStore) : Nat :=
  let n := if isReturn && decide (s.earlier.length + 1 = Config.maxLines) then 1 else 0
  let free := s.freeCells + cellsOf (s.earlier.take n)
  n + reclaimCount need free ((s.earlier.drop n).dropLast)
where
  /-- The number of cells of some lines. -/
  cellsOf (ls : List Line) : Nat := (ls.map fun l => l.cells.length).sum

/-- The free count as it would stand after the drop and the reclaiming (R15). -/
def freeAfterDrop (isReturn : Bool) (need : Nat) (s : LineStore) : Nat :=
  s.freeCells + linesToDrop.cellsOf (s.earlier.take (linesToDrop isReturn need s))

/-- Drop the `n` oldest lines; all their cells go back to the pool (R7). -/
def dropLines (n : Nat) (s : State) : State :=
  let gone := (s.store.earlier.take n).flatMap (·.cells)
  let s := { s with store := { s.store with earlier := s.store.earlier.drop n } }
  cutWords (wordNumbers gone) s

/-! ### The release pass (R55 to R57) -/

/-- Release one free cell: its position, its impressions, its state and its job (R56, Table 3-2). -/
def releaseCell (t : WheelTable) (spacing endAt : Nat) (c : Cell) : Cell × Option Job :=
  let imps := if c.strikes then buildImpressions t c else []
  let c' := { c with position := some (c.position.getD endAt), holds := {}, impressions := imps }
  if c.isReturn then
    ({ c' with state := .queued }, some { kind := .feed true spacing (some c.seq) 0, marked := c.drainMark })
  else if imps.isEmpty then ({ c' with state := .printed }, none)
  else ({ c' with state := .queued }, some { kind := .strike (.cell c.seq), marked := c.drainMark })

/-- What a release pass makes of some cells: the cells, the jobs to append, whether a code was missing (R32),
and whether the pass stopped. -/
structure Released where
  cells : List Cell
  jobs : List Job
  missing : Bool
  stopped : Bool
  deriving DecidableEq, Repr

/-- The release pass over the cells of a line (with their gap extras), `room` job places left (R55, R57). -/
def releaseCells (t : WheelTable) (spacing : Nat) : Nat → Nat → List (Cell × Nat) → Released
  | _, _, [] => { cells := [], jobs := [], missing := false, stopped := false }
  | endAt, room, (c, x) :: cs =>
    if c.state ≠ .held then
      let r := releaseCells t spacing (c.position.getD endAt + c.width + x) room cs
      { r with cells := c :: r.cells }
    else if c.holds ≠ {} then
      { cells := c :: cs.map (·.1), jobs := [], missing := false, stopped := true }
    else
      let out := releaseCell t spacing endAt c
      let next := out.1.position.getD endAt + c.width + x
      let missing := c.strikes && missingImpression t c
      match out.2, room with
      | none, _ =>
        let r := releaseCells t spacing next room cs
        { r with cells := out.1 :: r.cells, missing := missing || r.missing }
      | some j, room + 1 =>
        let r := releaseCells t spacing next room cs
        { r with cells := out.1 :: r.cells, jobs := j :: r.jobs, missing := missing || r.missing }
      | some _, 0 => { cells := c :: cs.map (·.1), jobs := [], missing := false, stopped := true }

/-- The release pass over a line. -/
def releaseLine (t : WheelTable) (room : Nat) (l : Line) : Released :=
  releaseCells t l.spacing l.left room (l.cells.zip l.cellExtras)

/-- The release pass over lines, oldest first: the lines, the jobs, whether a code was missing, whether it stopped. -/
def releaseLines (t : WheelTable) : Nat → List Line → List Line × List Job × Bool × Bool
  | _, [] => ([], [], false, false)
  | room, l :: ls =>
    let r := releaseLine t room l
    let l' := { l with cells := r.cells }
    if r.stopped then (l' :: ls, r.jobs, r.missing, true)
    else
      let rest := releaseLines t (room - r.jobs.length) ls
      (l' :: rest.1, r.jobs ++ rest.2.1, r.missing || rest.2.2.1, rest.2.2.2)

/-- The release pass (R55): the store's free cells are released in entry order, their jobs appended to the
tail of the queue (R56), NO_GLYPH set when a needed code is on no petal (R32), lines become DONE (R6). Impression lists are built from the
active table, in WHEEL_WAIT too (R32, R56; log 50). -/
def releasePass (s : State) : State :=
  let room := Config.maxJobs - s.seq.jobs.length
  let e := releaseLines s.mem.active room s.store.earlier
  let o : Released :=
    if e.2.2.2 then { cells := s.store.openLine.cells, jobs := [], missing := false, stopped := true }
    else releaseLine s.mem.active (room - e.2.1.length) s.store.openLine
  let store := { s.store with earlier := e.1, openLine := { s.store.openLine with cells := o.cells } }
  setLatchIf (e.2.2.1 || o.missing) .noGlyph
    { s with
      store := store.settleDone
      seq := { s.seq with jobs := s.seq.jobs ++ e.2.1 ++ o.jobs } }

/-! ### Type-ahead events and DRAIN -/

/-- The type-ahead events of one event, by the count before it (R59). -/
def judgeTypeAhead (before : Nat) (s : State) : State :=
  let after := s.store.unprinted
  let s := setLatchIf (decide (before < Config.typeAheadHigh ∧ Config.typeAheadHigh ≤ after)) .taHigh s
  setLatchIf (decide (0 < before ∧ after = 0)) .taEmpty s

/-- Queue a frame of the part's own in a place reserved for it (R189). -/
def queueFrame (f : OutFrame) (s : State) : State :=
  { s with link := { s.link with output := s.link.output ++ [f] } }

/-- Refusal codes with their values (Table 11-4). -/
inductive RefusalCode where
  | badLength | unknownKind | badValue | busy | full | lineFull | margin | noGlyph | noStop | nothing
  | notEmpty | notHeld | listFull | duplicate | notFound | notWaiting | nvFail | reset
  deriving DecidableEq, Repr

/-- The value of a refusal code (Table 11-4). -/
def RefusalCode.byte : RefusalCode → Byte
  | .badLength => 1
  | .unknownKind => 2
  | .badValue => 3
  | .busy => 4
  | .full => 5
  | .lineFull => 6
  | .margin => 7
  | .noGlyph => 8
  | .noStop => 9
  | .nothing => 10
  | .notEmpty => 11
  | .notHeld => 12
  | .listFull => 13
  | .duplicate => 14
  | .notFound => 15
  | .notWaiting => 16
  | .nvFail => 17
  | .reset => 18

/-- A reply frame: the request's kind plus 0x80, its tag, the payload of the owning rule (R188). -/
def replyFrame (kind tag : Byte) (payload : List Byte) : OutFrame := { kind := kind + 0x80, tag := tag, payload := payload }

/-- A REFUSE frame: the code, the refused kind, and for DUPLICATE what R134 adds (R191). -/
def refuseFrame (kind tag : Byte) (code : RefusalCode) (more : List Byte := []) : OutFrame :=
  { kind := 0xE1, tag := tag, payload := code.byte :: kind :: more }

/-- The reply of the request in hand fills its reserved place, and no request is in hand (R187, R189). -/
def answer (f : OutFrame) (s : State) : State :=
  { s with link := { s.link with output := s.link.output ++ [f], hand := none } }

/-- Things an outstanding DRAIN waits for: marked cells not PRINTED and marked jobs (R61). -/
def drainWaits (s : State) : Bool :=
  s.store.cells.any (fun c => c.drainMark && c.state != .printed) || s.seq.jobs.any (·.marked)

/-- When the last thing an outstanding DRAIN waits for has left, its reply is queued with its tag and every
drain mark returns to no (R61, R190). -/
def drainCheck (s : State) : State :=
  match s.link.drain with
  | none => s
  | some tag =>
    if drainWaits s then s
    else
      { s with
        store := s.store.mapCells fun c => { c with drainMark := false }
        link := { s.link with output := s.link.output ++ [replyFrame 0x12 tag []], drain := none } }

end Sys2Proof.Machine
end

