-- ==== Sys2Proof/Machine/Display.lean ====
section
/-! DEFINITION. The Display Controller (08_the_line_display.md): window start, window frame, the frame shown,
sending, the overlay. -/

namespace Sys2Proof.Machine

/-- Display code of the tab arrow (11_formats, 11.5). -/
abbrev tabArrow : Nat := 128

/-- Display code of the cursor block (11_formats, 11.5). -/
abbrev cursorBlock : Nat := 129

/-- The two tests of the window start, in order (R159). -/
def windowStart (cursor start : Nat) : Nat :=
  let s1 := if start + 29 < cursor then cursor - 24 else start
  if cursor < s1 + 2 ∧ 0 < s1 then cursor - 8 else s1

/-- The display code of a cell in the window (R160, Table 8-2). -/
def cellCode (blinkOn : Bool) (c : Cell) : Nat :=
  match c.kind with
  | .glyph => if c.mark = some .miss ∧ blinkOn = false then 32 else c.code
  | .tab => tabArrow
  | .space | .ret | .paraRet => 32

/-- A text position, by the index of the cell it would show (R160). -/
def textPosition (cells : List Cell) (blinkOn : Bool) (i : Nat) : DisplayCell :=
  match cells[i]? with
  | some c => { code := cellCode blinkOn c, underbar := c.state != .printed }
  | none => { code := if i = cells.length ∧ blinkOn = true then cursorBlock else 32, underbar := false }

/-- A number 1..999 in three positions, leading zeros shown as 32 (Table 8-4). -/
def columnCodes (n : Nat) : List Nat :=
  [if n < 100 then 32 else 48 + n / 100 % 10, if n < 10 then 32 else 48 + n / 10 % 10, 48 + n % 10]

/-- The alignment letter (Table 8-4). -/
def Alignment.letter : Alignment → Nat
  | .flushLeft => 76
  | .center => 67
  | .flushRight => 82
  | .justify => 74

/-- The mechanism mark (Table 8-4); the display shows nothing in STANDBY. -/
def MechState.letter : MechState → Nat
  | .ready | .busy => 32
  | .fault => 33
  | .interlocked => 35
  | .wheelWait => 87
  | .suspended => 80
  | .off | .homing => 72
  | .standby => 32

/-- The spelling item (Table 8-4). -/
def spellingLetter (k : Checker) : Nat :=
  if k.enabled then (if k.availability = .unavailable then 63 else 83) else 32

/-- The codes of the status field, positions 33 to 40 (R161, Table 8-4). -/
def statusCodes (s : State) : List Nat :=
  columnCodes (columnNumber (tableInForce s) s.store.openLine)
    ++ [s.store.openLine.alignment.letter
      , (match s.store.settings.releaseMode with | .direct => 68 | .word => 87)
      , spellingLetter s.spell
      , s.seq.mech.letter
      , if Config.typeAheadHigh ≤ s.store.unprinted then 62 else 32]

/-- The window frame (R160, R161). -/
def windowFrame (s : State) : List DisplayCell :=
  (List.range 32).map (fun k => textPosition s.store.openLine.cells s.disp.blinkOn (s.disp.winStart + k))
    ++ (statusCodes s).map fun c => { code := c, underbar := false }

/-- The frame to show: the overlay frame while an overlay is shown (R165), else the window frame; the frame as
it is in STARTING and OFF (Table 8-1). -/
def frameToShow (s : State) : List DisplayCell :=
  match s.disp.state with
  | .starting | .off => s.disp.frame
  | .on =>
    match s.disp.overlay with
    | some codes => codes.map fun c => { code := c, underbar := false }
    | none => windowFrame s

/-- The frame held becomes `f`; the dirty flag is set when any position differs (R163). -/
def showFrame (f : List DisplayCell) (d : Display) : Display :=
  { d with frame := f, dirty := d.dirty || decide (f ≠ d.frame) }

/-- One report to the Display Controller: the window start, the frame, the dirty flag (R158, R159, R163). -/
def refreshDisplay (s : State) : State :=
  let s := { s with disp.winStart := windowStart s.store.openLine.cells.length s.disp.winStart }
  { s with disp := showFrame (frameToShow s) s.disp }

/-- The overlay ends: its record is cleared and its timer stopped (R166). -/
def endOverlay (d : Display) : Display := { d with overlay := none, overlayTimer := none }

/-- The five underbar bytes of a frame: bit i of byte j for position 8j + i + 1 (11_formats, 11.5). -/
def underbarByte (f : List DisplayCell) (j : Nat) : Byte :=
  BitVec.ofNat 8
    (((List.range 8).map fun i => if (f[8 * j + i]?.map (·.underbar)).getD false then 2 ^ i else 0).sum)

/-- The 46 bytes of a frame on the display link (11_formats, 11.5). Bits 1 to 7 of the control byte, of which 11.5 gives bit 0 alone,
are sent as 0 (DESIGN CHOICE, unsafe: log 49). -/
def displayBytes (on : Bool) (f : List DisplayCell) : List Byte :=
  yesNo on :: (f.map (fun c => BitVec.ofNat 8 c.code) ++ (List.range 5).map (underbarByte f))

/-- A send begins: the frame is taken, the dirty and the gap flag are cleared, the link is SENDING (R164, R167). -/
def beginSend (on : Bool) (d : Display) : Display :=
  { d with sending := some (displayBytes on d.frame), dirty := false, gap := false, offOwed := false }

/-- A send may begin: by R164, or the owed switching-off frame, which does not wait for the gap (R167). -/
def sendBegins (d : Display) : Bool :=
  d.sending.isNone && (d.offOwed || (d.dirty && d.gap && d.state != .off))

/-- The display switches off (R167): the overlay ends, the frame is blank, one switching-off frame is sent, after
the send in progress when there is one. -/
def switchOff (d : Display) : Display :=
  let d := showFrame blankFrame { endOverlay d with state := .off }
  if d.sending.isNone then beginSend false d else { d with offOwed := true }

/-- The display switches on at wake (R167). A switching-off frame still owed behind a send in progress is dropped: R167 does not say
(DESIGN CHOICE, unsafe: log 41). -/
def switchOn (d : Display) : Display :=
  { d with state := .on, blinkOn := true, dirty := true, gap := true, offOwed := false }

end Sys2Proof.Machine
end

