-- ==== Sys2Proof/Machine/Sequencer.lean ====
section
/-! DEFINITION. The Print Sequencer's shared operations (04_the_print_mechanism.md): wheel rotation, hammer
pulse, working the job in flight, completion, suspends, parking, stopping, the start of homing. -/

namespace Sys2Proof.Machine

/-! ### Motion -/

/-- The rotation from petal `c` to petal `t` by the shorter way (R73, Table 4-3); absent when d = 0. -/
def wheelTurn (c t : Nat) : Option WheelMove :=
  let d := (t + 100 - c) % 100
  if d = 0 then none
  else if d ≤ 50 then some { target := t, clockwise := true, stepsLeft := 4 * d }
  else some { target := t, clockwise := false, stepsLeft := 4 * (100 - d) }

/-- The hammer pulse in ticks of an energy level at an impression setting (R74). -/
def pulseTicks (level setting : Nat) : Nat := min 63 (max 10 (10 + 4 * level + 6 * (setting - 1)))

/-- The energy level of a lift of an impression of a level (R74). -/
def liftLevel (level : Nat) : Nat := min 7 (level + 2)

/-- A lifter told to rise. -/
def LifterPos.raise : LifterPos → LifterPos
  | .up => .up
  | .down | .rising | .lowering => .rising

/-- A lifter told to go down. -/
def LifterPos.lower : LifterPos → LifterPos
  | .down => .down
  | .up | .rising | .lowering => .lowering

/-- The position and impressions a STRIKE works on (R67, R69). -/
def strikeView (s : State) : StrikeTarget → Option (Nat × List Impression)
  | .cell n => (s.store.findCell n).map fun c => (c.position.getD 0, c.impressions)
  | .detached p l => some (p, l)

/-- Mark the first impression not yet made (R71). -/
def makeFirst : List Impression → List Impression
  | [] => []
  | i :: is => if i.made then i :: makeFirst is else { i with made := true } :: is

/-- Change the job at the head of the queue. -/
def mapHead (f : JobKind → JobKind) (s : State) : State :=
  { s with
    seq := { s.seq with
      jobs := match s.seq.jobs with
        | [] => []
        | j :: js => { j with kind := f j.kind } :: js } }

/-- An impression made by a detached STRIKE is added to the pending LIFT behind it (R69, R77). -/
def addToPending (i : Impression) (js : List Job) : List Job :=
  js.map fun j =>
    match j.kind with
    | .lift p snap true n => { j with kind := .lift p (snap ++ [{ i with made := true }]) true n }
    | _ => j

/-- The pending LIFT is fixed; fixed empty, it leaves the queue (R77). -/
def fixPending (js : List Job) : List Job :=
  js.filterMap fun j =>
    match j.kind with
    | .lift p snap true n => if snap.isEmpty then none else some { j with kind := .lift p snap false n }
    | _ => some j

/-- The pulse of a STRIKE impression starts: the impression is made and reported to the cell, or for a detached
STRIKE to its copy and the pending LIFT (R69, R71). -/
def startStrikePulse (target : StrikeTarget) (i : Impression) (s : State) : State :=
  let s :=
    match target with
    | .cell n => { s with store := s.store.mapCell n fun c => { c with impressions := makeFirst c.impressions } }
    | .detached p l =>
      let s := mapHead (fun _ => .strike (.detached p (makeFirst l))) s
      { s with seq := { s.seq with jobs := addToPending i s.seq.jobs } }
  { s with
    seq := { s.seq with phase := .pulse, hammer := .driven, pulse := pulseTicks i.level s.seq.flightSetting } }

/-- The pulse of a LIFT impression starts: lifts done rises by 1 (R76). -/
def startLiftPulse (p : Nat) (snap : List Impression) (isPending : Bool) (done : Nat) (i : Impression) (s : State) : State :=
  let s := mapHead (fun _ => .lift p snap isPending (done + 1)) s
  { s with
    seq :=
      { s.seq with phase := .pulse, hammer := .driven, pulse := pulseTicks (liftLevel i.level) s.seq.flightSetting } }

/-- The carriage goes to a unit and the wheel to a petal, together (R71, R76). -/
def aim (pos petal : Nat) (q : Sequencer) : Sequencer :=
  { q with phase := .moving, carTarget := some pos, wheelMove := wheelTurn (q.petal.getD 0) petal }

/-- The carriage and the wheel stand at an impression. -/
def atImpression (pos petal : Nat) (q : Sequencer) : Bool := q.carriage == some pos && q.petal == some petal

/-- The job in flight is paused, no longer marked (R86); for a LIFT the tape lifter is lowered (R75). -/
def pauseJob (s : State) : State :=
  { s with seq := { s.seq with phase := .paused, tapeLifter := s.seq.tapeLifter.lower, mark := false } }

/-- Work a STRIKE: raise the ribbon, go to the first impression not made, and when all has settled test the firing
conditions (R70, R71, R75). Answers whether no impression is left to make. -/
def workStrike (target : StrikeTarget) (s : State) : State × Bool :=
  match strikeView s target with
  | none => (s, true)
  | some (pos, imps) =>
    match imps.find? (fun i => !i.made) with
    | none => (s, true)
    | some i =>
      let s :=
        match target with
        | .cell n => { s with store := s.store.mapCell n fun c => { c with state := .striking } }
        | .detached _ _ => s
      let s := { s with seq := { s.seq with ribbonLifter := s.seq.ribbonLifter.raise } }
      if atImpression (pos + i.offset) i.petal s.seq then
        if s.seq.ribbonLifter ≠ .up then
          ({ s with seq := { s.seq with phase := .moving, carTarget := some (pos + i.offset), wheelMove := none } }, false)
        else if s.mon.levels.ribbonEnd then (pauseJob s, false)
        else if s.mon.levels.cover then (startStrikePulse target i s, false)
        else (s, false)
      else ({ s with seq := aim (pos + i.offset) i.petal s.seq }, false)

/-- Work a LIFT: the snapshot's impressions last first, the tape raised at each before the firing conditions are
tested (R75, R76). Answers whether every impression has been lifted. -/
def workLift (p : Nat) (snap : List Impression) (isPending : Bool) (done : Nat) (s : State) : State × Bool :=
  if snap.length ≤ done then (s, true)
  else
    match snap[snap.length - 1 - done]? with
    | none => (s, true)
    | some i =>
      let s := { s with seq := { s.seq with ribbonLifter := s.seq.ribbonLifter.lower } }
      if atImpression (p + i.offset) i.petal s.seq then
        if s.seq.tapeLifter ≠ .up then
          ({ s with seq := { s.seq with phase := .tapeRising, tapeLifter := s.seq.tapeLifter.raise } }, false)
        else if s.mon.levels.tapeEnd then (pauseJob s, false)
        else if s.mon.levels.cover then (startLiftPulse p snap isPending done i s, false)
        else (s, false)
      else ({ s with seq := aim (p + i.offset) i.petal s.seq }, false)

/-- Begin, go on with or continue the job in flight. Answers whether the job has nothing left to do. -/
def workHead (s : State) : State × Bool :=
  match s.seq.jobs with
  | [] => (s, false)
  | j :: _ =>
    match j.kind with
    | .strike target => workStrike target s
    | .lift p snap isPending done => workLift p snap isPending done s
    | .feed _ steps _ done =>
      if steps ≤ done then (s, true)
      else ({ s with seq := { s.seq with phase := .feeding, ribbonLifter := s.seq.ribbonLifter.lower } }, false)
    | .cross back target done _ =>
      let s := { s with seq := { s.seq with ribbonLifter := s.seq.ribbonLifter.lower, carTarget := some target } }
      if back ≤ done ∧ s.seq.carriage = some target then (s, true)
      else ({ s with seq := { s.seq with phase := .crossing } }, false)

/-! ### Completion -/

/-- The paper-out feed begins: 96 steps outside the queue; the reach flag of the line before is cleared (R89, R100). R89 does not say
whether at the feed's start or at its end: it is cleared at the start only (DESIGN CHOICE, unsafe: log 38). -/
def startPaperFeed (s : State) : State :=
  let s := clearReachBefore s
  { s with seq := { s.seq with paperFeed := some 0, parking := false, mech := .suspended, mark := false } }

/-- The job in flight completes (R66, R72, R76, R78, R79): what it reports to the Line Store, its removal, the
release pass (R57, R68), and the paper-out feed when one is owed (R89). -/
def completeHead (s : State) : State :=
  match s.seq.jobs with
  | [] => s
  | j :: js =>
    let s :=
      match j.kind with
      | .strike (.cell n) => { s with store := s.store.mapCell n fun c => { c with state := .printed } }
      | .feed _ _ (some n) _ => { s with store := s.store.mapCell n fun c => { c with state := .printed } }
      | .strike (.detached _ _) | .feed _ _ none _ | .lift _ _ _ _ | .cross _ _ _ _ => s
    let js :=
      match j.kind with
      | .strike (.detached _ _) => fixPending js
      | .strike (.cell _) | .lift _ _ _ _ | .feed _ _ _ _ | .cross _ _ _ _ => js
    let s :=
      releasePass
        { s with
          store := s.store.settleDone
          seq := { s.seq with jobs := js, inFlight := false, phase := .rest, mark := false } }
    if !s.mon.levels.paper && !s.seq.suspend.paper then startPaperFeed s else s

/-! ### Suspends, taking jobs, parking -/

/-- A STRIKE at the head that is not started, or is paused (R65). -/
def ribbonWaits (s : State) : Bool :=
  match s.seq.jobs with
  | { kind := .strike _, .. } :: _ => !s.seq.inFlight || s.seq.phase == .paused
  | _ => false

/-- A LIFT at the head that is not started, or is paused (R65). -/
def tapeWaits (s : State) : Bool :=
  match s.seq.jobs with
  | { kind := .lift _ _ _ _, .. } :: _ => !s.seq.inFlight || s.seq.phase == .paused
  | _ => false

/-- Recompute RIBBON and TAPE of the suspend reason set, with the latch of a reason that enters (R65, R75, R90). -/
def refreshSuspend (s : State) : State :=
  let ribbon := s.mon.levels.ribbonEnd && ribbonWaits s
  let tape := s.mon.levels.tapeEnd && tapeWaits s
  let s1 := setLatchIf (ribbon && !s.seq.suspend.ribbon) .ribbonEnd s
  let s2 := setLatchIf (tape && !s.seq.suspend.tape) .tapeEnd s1
  { s2 with seq := { s2.seq with suspend := { s2.seq.suspend with ribbon := ribbon, tape := tape } } }

/-- Outside READY, BUSY and SUSPENDED the set is recomputed too (R65), but no suspend begins and no latch is set (R90,
log 11). -/
def noteReasons (s : State) : State :=
  { s with
    seq :=
      { s.seq with
        suspend :=
          { s.seq.suspend with
            ribbon := s.mon.levels.ribbonEnd && ribbonWaits s
            tape := s.mon.levels.tapeEnd && tapeWaits s } } }

/-- The head job is taken: it is in flight, the impression setting is recorded, a park move is abandoned (R66, R70). -/
def takeHead (s : State) : State :=
  { s with
    seq := { s.seq with
      mech := .busy, inFlight := true, flightSetting := s.seq.setting, phase := .rest, parking := false
      mark := false } }

/-- The park point (R80). -/
def parkPoint (l : Line) : Nat :=
  match l.alignment with
  | .center | .flushRight | .justify => l.left
  | .flushLeft =>
    match l.segment with
    | some g => g.point
    | none => l.typingPoint

/-- READY with an empty queue: the ribbon is lowered and the carriage parks (R80). A move to another park point is a new
move, and the mark of one that ended is cleared (R86). -/
def park (s : State) : State :=
  let p := parkPoint s.store.openLine
  { s with
    seq :=
      { s.seq with
        mech := .ready, ribbonLifter := s.seq.ribbonLifter.lower, carTarget := some p
        parking := s.seq.carriage != some p
        mark := s.seq.mark && s.seq.parking && s.seq.carTarget == some p && s.seq.carriage != some p } }

/-! ### Homing starts and stops -/

/-- All motion stops at once: hammer held back, lifters lowered, park move, paper-out feed and homing abandoned; a
STRIKE in flight that has made no impression returns its cell to QUEUED (R87, R91, R97). The rules say "lowered" and not whether the 6 ms
fall of R76 is waited for: both lifters are down at once, with no LIFTER_DONE to follow (DESIGN CHOICE, unsafe: log 52). -/
def stopMotion (s : State) : State :=
  let s :=
    match s.seq.jobs, s.seq.inFlight with
    | { kind := .strike (.cell n), .. } :: _, true =>
      { s with
        store := s.store.mapCell n fun c =>
          if (c.impressions.any (·.made)) = true then c else { c with state := .queued } }
    | _, _ => s
  { s with
    seq :=
      { s.seq with
        phase := .rest, hammer := .rest, ribbonLifter := .down, tapeLifter := .down, parking := false
        paperFeed := none, carTarget := none, wheelMove := none, mark := false, homing := none
        homingWait := .none } }

/-- Homing begins: full, or of the wheel alone with the carriage position kept (R81, R82, R83). A sensor that already
shows home sends the carriage right first; an index already showing counts as seen (log 25). -/
def beginHoming (full : Bool) (s : State) : State :=
  { s with
    seq :=
      { s.seq with
        mech := .homing, phase := .rest, hammer := .rest, ribbonLifter := .down, tapeLifter := .down
        parking := false, paperFeed := none, carTarget := none, wheelMove := none, mark := false
        homingWait := .none
        carriage := if full then none else s.seq.carriage
        petal := if s.mon.levels.wheelIndex then some 0 else none
        homing :=
          some
            { carriage :=
                if full then (if s.mon.levels.carriageHome then .rightward 0 else .leftward 0) else .ended
              wheel := if s.mon.levels.wheelIndex then .reading 0 else .seeking 0 } } }

/-- Homing, or INTERLOCKED with the cover open (R88, R95, R96, R97). -/
def homeOrInterlock (full : Bool) (s : State) : State :=
  if s.mon.levels.cover then beginHoming full s else { s with seq := { s.seq with mech := .interlocked } }

/-- Homing is over (R84): the suspend reason set is judged afresh, paper found absent counts without the feed (R89),
and the state becomes READY; the sequencer then goes on by `seqUpdate`. -/
def homingOver (s : State) : State :=
  let absent := !s.mon.levels.paper
  let s := if absent then clearReachBefore s else s
  let s := setLatchIf absent .paperOut s
  { s with
    seq := { s.seq with
      mech := .ready, homing := none, homingWait := .none
      suspend := { paper := absent, ribbon := false, tape := false } } }

/-! ### The sequencer goes on -/

/-- One event's worth of sequencing: the suspend set is judged, a suspended sequencer waits, the job in flight is
worked, completed jobs leave and the next head is taken, an empty queue parks (R65, R66, R80, R84, R89, R90). OFF leaves
for HOMING or INTERLOCKED (R96). -/
def seqLoop : Nat → State → State
  | 0, s => s
  | fuel + 1, s =>
    match s.seq.mech with
    | .off => homeOrInterlock true s
    | .homing | .interlocked | .wheelWait | .fault | .standby => noteReasons s
    | .ready | .busy | .suspended =>
      let s := refreshSuspend s
      if s.seq.paperFeed.isSome then { s with seq := { s.seq with mech := .suspended } }
      else if s.seq.suspend ≠ {} then { s with seq := { s.seq with mech := .suspended, parking := false, mark := false } }
      else if s.seq.inFlight then
        match s.seq.phase with
        | .rest | .paused =>
          let w := workHead { s with seq := { s.seq with mech := .busy } }
          if w.2 then seqLoop fuel (completeHead w.1)
          else if w.1.seq.phase = .paused then seqLoop fuel w.1
          else w.1
        | .moving | .tapeRising | .pulse | .retract | .feeding | .crossing =>
          { s with seq := { s.seq with mech := .busy } }
      else if s.seq.jobs.isEmpty then park s
      else seqLoop fuel (takeHead s)

/-- The sequencer goes on after an event. -/
def seqUpdate (s : State) : State := seqLoop (2 * (s.seq.jobs.length + s.store.cells.length) + 8) s

end Sys2Proof.Machine
end

