-- ==== Sys2Proof/Machine/Spelling.lean ====
section
/-! DEFINITION. The Spelling Checker (06_spelling.md) and the word tracker's hand-off (R24): the WORD
condition, verdicts, the check queue, the lookup, availability. -/

namespace Sys2Proof.Machine

/-! ### The WORD condition (R53, R54) -/

/-- The WORD condition (R53); RETRYING counts as available (R137). -/
def wordCondition (s : State) : Bool :=
  s.store.settings.releaseMode == .word && s.spell.enabled && s.spell.availability != .unavailable

/-- Remove the WORD reason from every cell that holds it (R54). -/
def clearWordHolds (s : State) : State :=
  { s with store := s.store.mapCells fun c => { c with holds := { c.holds with word := false } } }

/-- Give the WORD reason to every HELD letter cell marked UNCHECKED, PENDING or MISS (R54). -/
def giveWordHolds (s : State) : State :=
  { s with
    store := s.store.mapCells fun c =>
      if c.state = .held ∧ (c.mark = some .unchecked ∨ c.mark = some .pending ∨ c.mark = some .miss) then
        { c with holds := { c.holds with word := true } }
      else c }

/-- The WORD condition judged again after a change, given its value before (R54). -/
def judgeWord (before : Bool) (s : State) : State :=
  if before && !wordCondition s then clearWordHolds s
  else if !before && wordCondition s then giveWordHolds s
  else s

/-! ### Verdicts (R130) -/

/-- The verdicts (Table 6-4). -/
inductive Verdict where
  | hit | skip | miss | accepted
  deriving DecidableEq, Repr

/-- The spelling mark of a verdict. -/
def Verdict.mark : Verdict → SpellMark
  | .hit => .hit
  | .skip => .skip
  | .miss => .miss
  | .accepted => .accepted

/-- Set the marks of a word's letter cells, and remove their WORD reason unless the verdict is MISS (R53, R130). -/
def markWord (w : WordRef) (v : Verdict) (s : State) : State :=
  { s with
    store := s.store.mapCells fun c =>
      if c.word = some w then
        { c with mark := some v.mark, holds := if v = .miss then c.holds else { c.holds with word := false } }
      else c }

/-- Apply a verdict (R130): marks and holds; a MISS joins the flagged list, sets MISS and sounds the double
beep; an accepted word leaves the flagged list. -/
def applyVerdict (w : WordRef) (letters : List Nat) (v : Verdict) (s : State) : State :=
  let s := markWord w v s
  match v with
  | .hit => s
  | .skip => s
  | .miss =>
    beep .double (setLatch .miss
      { s with spell := { s.spell with flagged := s.spell.flagged ++ [{ word := w, letters := letters }] } })
  | .accepted => { s with spell := { s.spell with flagged := s.spell.flagged.filter fun f => f.word != w } }

/-! ### The check queue and the lookup (R124 to R129) -/

/-- The bucket number of folded letters (R126). -/
def bucketNumber (letters : List Nat) : Nat :=
  letters.foldl (fun h v => (h * 37 + v) % 4096) letters.length

/-- The first WAITING request (R125). -/
def firstWaiting (q : List CheckRequest) : Option CheckRequest := q.find? fun r => !r.reading

/-- Remove the request of a word from the check queue (R129). -/
def removeCheck (w : WordRef) (s : State) : State :=
  { s with spell := { s.spell with queue := s.spell.queue.filter fun r => r.word != w } }

/-- The checker takes WAITING requests while it may (R125): a user-list match gives HIT at once; otherwise the
request becomes READING and its directory read joins the dictionary class. -/
def takeChecksFuel : Nat → State → State
  | 0, s => s
  | fuel + 1, s =>
    if s.spell.lookup.isNone && s.spell.enabled && s.spell.availability == .available && s.mem.listRead then
      match firstWaiting s.spell.queue with
      | none => s
      | some r =>
        if s.spell.userList.contains r.letters then
          takeChecksFuel fuel (applyVerdict r.word r.letters .hit (removeCheck r.word s))
        else
          { s with
            spell :=
              { s.spell with
                queue := s.spell.queue.map fun q => if q.word = r.word then { q with reading := true } else q
                lookup := some { letters := r.letters, bucket := none, stale := false } }
            mem := { s.mem with dictWaiting := true } }
    else s

/-- R125, as often as the queue's capacity. -/
def takeChecks (s : State) : State := takeChecksFuel (Config.maxChecks + 1) s

/-- A word is handed over (R24): folded (R122), given one of the outcomes of Table 6-1 (R123), a PENDING word
queued and taken at once when the checker is idle (R125). `before` is the code of the cell before the first
letter in the line, `delimiter` the delimiter's code. -/
def handOff (w : WordRef) (codes : List Nat) (before : Option Nat) (delimiter : Nat) (s : State) : State :=
  let letters := codes.map foldCode
  if s.spell.enabled = false then applyVerdict w letters .skip s
  else if letters.length ≤ 1 ∨ 24 < letters.length then applyVerdict w letters .skip s
  else if (before.map isDigit).getD false || isDigit delimiter then applyVerdict w letters .skip s
  else if s.spell.availability = .unavailable then
    if s.spell.userList.contains letters then applyVerdict w letters .hit s else applyVerdict w letters .skip s
  else if Config.maxChecks ≤ s.spell.queue.length then setLatch .spellOverrun (applyVerdict w letters .skip s)
  else
    takeChecks
      { s with
        store := s.store.mapCells fun c => if c.word = some w then { c with mark := some .pending } else c
        spell := { s.spell with queue := s.spell.queue ++ [{ word := w, letters := letters, reading := false }] } }

/-- The code of the cell just before the first letter of a word in a list of cells (R24). -/
def codeBefore (w : WordRef) : Option Nat → List Cell → Option Nat
  | _, [] => none
  | prev, c :: cs => if c.word = some w then prev else codeBefore w (some c.code) cs

/-- The open word ends with a delimiter and is handed over (R24). -/
def completeWord (delimiter : Nat) (s : State) : State :=
  match s.store.openWord with
  | none => s
  | some w =>
    let cells := s.store.openLine.cells
    let codes := (cells.filter fun c => c.word == some w).map (·.code)
    handOff w codes (codeBefore w none cells) delimiter
      { s with store := { s.store with openWord := none, pendingApostrophe := none } }

/-- What the bucket read finds (R127): HIT or MISS at the first ending event, absent while the bytes so far
reach none. The fuel is the most entries 256 bytes can hold. -/
def scanBucket (letters : List Nat) (bytes : List Byte) : Nat → Nat → Option Bool
  | 0, _ => none
  | fuel + 1, at0 =>
    if 256 ≤ at0 then some false
    else if bytes.length ≤ at0 then none
    else
      let len := byteAt bytes at0
      if len = 0 then some false
      else if len = 1 ∨ 24 < len then some false
      else if 256 < at0 + 1 + len then some false
      else if bytes.length < at0 + 1 + len then none
      else if ((bytes.drop (at0 + 1)).take len).map BitVec.toNat = letters then some true
      else scanBucket letters bytes fuel (at0 + 1 + len)

/-- The lookup in flight ends with a result (R128, R129): a MISS looks in the user list once more; a stale
result is discarded (R132). -/
def lookupEnds (found : Bool) (s : State) : State :=
  match s.spell.lookup with
  | none => s
  | some k =>
    let s1 := { s with spell := { s.spell with lookup := none } }
    if k.stale then s1
    else
      match s.spell.queue.find? (·.reading) with
      | none => s1
      | some r =>
        let hit := found || s.spell.userList.contains r.letters
        applyVerdict r.word r.letters (if hit then .hit else .miss) (removeCheck r.word s1)

/-! ### Availability (R137, R138) -/

/-- Every request of the check queue leaves it with SKIP, oldest first (R138, R135b). -/
def skipAllChecks (s : State) : State :=
  s.spell.queue.foldl (fun s r => applyVerdict r.word r.letters .skip s)
    { s with spell := { s.spell with queue := [] } }

/-- Availability becomes UNAVAILABLE (R138): DICT_FAULT, every request ends with SKIP, the lookup ends, the
WORD condition is judged. DICT_FAULT is set again when it was UNAVAILABLE already (R138, last sentence). -/
def spellingLost (s : State) : State :=
  let before := wordCondition s
  let s := setLatch .dictFault s
  if s.spell.availability = .unavailable then
    { s with spell := { s.spell with lookup := none }, mem := { s.mem with dictWaiting := false } }
  else
    judgeWord before
      (skipAllChecks
        { s with
          spell := { s.spell with lookup := none, availability := .unavailable }
          mem := { s.mem with dictWaiting := false } })

/-- A header read is requested of the Memory Link, once, and availability becomes RETRYING (R137, R151, R157). -/
def requestHeader (s : State) : State :=
  let inFlight := match s.mem.transaction with
    | some t => t.job == .header
    | none => false
  { s with
    spell := { s.spell with availability := .retrying }
    mem := { s.mem with headerWaiting := s.mem.headerWaiting || !inFlight } }

end Sys2Proof.Machine
end

