-- ==== Sys2Proof/Machine/Memory.lean ====
section
/-! DEFINITION. The Memory Link (07_wheels_and_the_memory_link.md): table sources, the comparison after
homing, table loads and revisions, wheel decisions, NV saves and restores, the bus arbiter. -/

namespace Sys2Proof.Machine

/-! ### Table sources and revisions -/

/-- Sources of a table (Table 7-2). -/
inductive TableSource where
  | rom | builtIn | absent
  deriving DecidableEq, Repr

/-- The ROM is usable and its directory lists the ID in a used entry (R142). -/
def romLists (h : Option RomHeader) (id : Nat) : Bool :=
  match h with
  | none => false
  | some h => h.wheels.any fun w => w.1 == id && w.2 != 0

/-- The source of the table of a wheel ID (R142, Table 7-2). -/
def tableSource (m : MemoryLink) (id : Nat) : TableSource :=
  if romLists m.header id then .rom else if id = 0 then .builtIn else .absent

/-- One impression under a new table (R146): made ones are kept; the code of its petal, underscore for underscore,
takes its petal and level there; a code not on the new wheel takes the impression out. -/
def reviseImpression (old new : WheelTable) (i : Impression) : Option Impression :=
  if i.made then some i
  else
    let code := ((old.petals[i.petal]?).map (·.code)).getD 0
    let code := if code = old.underscore then new.underscore else code
    (new.petalOf code).map fun p => { i with petal := p.1, level := p.2.level }

/-- An impression list under a new table (R146). -/
def reviseList (old new : WheelTable) (l : List Impression) : List Impression :=
  l.filterMap (reviseImpression old new)

/-- The cells a revision reaches (R146). -/
def Cell.revised (c : Cell) : Bool := c.state == .queued || c.state == .striking

/-- The copy of a detached STRIKE under a new table (R146). -/
def reviseJob (old new : WheelTable) (j : Job) : Job :=
  match j.kind with
  | .strike (.detached p l) => { j with kind := .strike (.detached p (reviseList old new l)) }
  | .strike (.cell _) | .lift _ _ _ _ | .feed _ _ _ _ | .cross _ _ _ _ => j

/-- A revision loses an impression of some list (R146). -/
def revisionLoses (old new : WheelTable) (s : State) : Bool :=
  let loses := fun l : List Impression => l.any fun i => (reviseImpression old new i).isNone
  (s.store.cells.any fun c => c.revised && loses c.impressions)
    || s.seq.jobs.any fun j =>
      match j.kind with
      | .strike (.detached _ l) => loses l
      | .strike (.cell _) | .lift _ _ _ _ | .feed _ _ _ _ | .cross _ _ _ _ => false

/-- The active table is replaced: the impression lists of released cells are revised first, NO_GLYPH set once when one
is lost (R146). -/
def replaceTable (new : WheelTable) (s : State) : State :=
  let old := s.mem.active
  let s := setLatchIf (revisionLoses old new s) .noGlyph s
  { s with
    store := s.store.mapCells fun c =>
      if c.revised then { c with impressions := reviseList old new c.impressions } else c
    seq := { s.seq with jobs := s.seq.jobs.map (reviseJob old new) }
    mem := { s.mem with active := new } }

/-- The built-in table is selected, without a transaction (R142). -/
def selectBuiltIn (s : State) : State :=
  if s.mem.active = builtInTable then s else replaceTable builtInTable s

/-! ### WHEEL_WAIT, loads and the comparison (R144 to R147) -/

/-- WHEEL_WAIT begins with a reason and decision NONE; the table active now stays in force (R147, R12). -/
def enterWheelWait (reason : WaitReason) (hub : Nat) (s : State) : State :=
  let s := setLatch (match reason with | .mismatch => .wheelMismatch | .unknown => .wheelUnknown) s
  { s with
    seq := { s.seq with mech := .wheelWait, homing := none, homingWait := .none }
    mem := { s.mem with wait := some { reason := reason, hub := hub, decision := none, table := s.mem.active } } }

/-- WHEEL_WAIT ends: homing is over (R84, R147). -/
def endWheelWait (s : State) : State := homingOver { s with mem := { s.mem with wait := none } }

/-- The load in flight, when there is one. -/
def MemoryLink.loadInFlight (m : MemoryLink) : Bool :=
  match m.transaction with
  | some { job := .load _, .. } => true
  | _ => false

/-- A ROM header read is waiting or in flight (R144). -/
def MemoryLink.headerBusy (m : MemoryLink) : Bool :=
  m.headerWaiting ||
    match m.transaction with
    | some { job := .header, .. } => true
    | _ => false

/-- A table load is waiting or in flight (R145). -/
def MemoryLink.loadBusy (m : MemoryLink) : Bool := m.loadWaiting.isSome || m.loadInFlight

/-- A homing asks for the load of the hub ID's table; with a load in progress it waits for that one (R145). -/
def askHomingLoad (hub : Nat) (s : State) : State :=
  if s.mem.loadBusy then { s with seq := { s.seq with homing := none, homingWait := .otherLoad hub } }
  else
    { s with
      seq := { s.seq with homing := none, homingWait := .ownLoad hub }
      mem := { s.mem with loadWaiting := some { id := hub, assignHub := none, homing := true } } }

/-- A selection of the built-in table that would replace the active table while a load is in progress, which R143 forbids. -/
def selectionWaits (s : State) : Bool := s.mem.loadBusy && decide (s.mem.active ≠ builtInTable)

/-- The comparison at the end of homing (R144, Table 7-3). Where it selects the built-in table while a load is in progress, it waits
for that load and is then made again (R143, R145; DESIGN CHOICE, log 44). -/
def compareWheel (hub : Nat) (s : State) : State :=
  let quiet := s.seq.jobs.isEmpty && !s.store.anyHeld
  let needsSource := s.mem.provisional || (decide (hub ≠ s.mem.boundId) && quiet)
  if needsSource && s.mem.headerBusy then
    { s with seq := { s.seq with homing := none, homingWait := .header hub } }
  else if needsSource && tableSource s.mem hub == .builtIn && selectionWaits s then
    { s with seq := { s.seq with homing := none, homingWait := .otherLoad hub } }
  else if s.mem.provisional then
    match tableSource s.mem hub with
    | .builtIn =>
      let s := selectBuiltIn s
      homingOver { s with mem := { s.mem with provisional := false, boundId := 0 } }
    | .rom => askHomingLoad hub s
    | .absent => enterWheelWait .unknown hub { s with mem := { s.mem with provisional := false } }
  else if hub = s.mem.boundId then homingOver s
  else if quiet then
    match tableSource s.mem hub with
    | .rom => askHomingLoad hub s
    | .builtIn =>
      let s := selectBuiltIn s
      homingOver (setLatch .wheelChanged { s with mem := { s.mem with boundId := 0 } })
    | .absent => enterWheelWait .unknown hub s
  else enterWheelWait .mismatch hub s

/-- A wheel decision is fitted (R148, R149a): no load for the table already active (WHEEL-ASSIGN) or already bound to the
hub, a ROM load with decision LOADING, the built-in table at once (with decision LOADING until a load in progress has ended: R143,
DESIGN CHOICE, log 44), or reason UNKNOWN again without a source. -/
def fitWheel (hub : Nat) (d : LoadRequest) (again : Bool) (s : State) : State :=
  if d.assignHub.isSome && decide (d.id = s.mem.active.id) then
    endWheelWait { s with mem := { s.mem with boundId := hub } }
  else if again && d.assignHub.isNone && decide (s.mem.boundId = hub) then endWheelWait s
  else
    match tableSource s.mem d.id with
    | .rom =>
      { s with
        mem :=
          { s.mem with
            wait := s.mem.wait.map fun w => { w with decision := some d }
            loadWaiting := if s.mem.loadBusy then s.mem.loadWaiting else some d } }
    | .builtIn =>
      if selectionWaits s then
        { s with mem := { s.mem with wait := s.mem.wait.map fun w => { w with decision := some d } } }
      else
        let s := setLatchIf (s.mem.active != builtInTable) .wheelChanged s
        let s := selectBuiltIn s
        endWheelWait { s with mem := { s.mem with boundId := d.assignHub.getD 0 } }
    | .absent =>
      setLatch .wheelUnknown
        { s with mem := { s.mem with wait := s.mem.wait.map fun w => { w with reason := .unknown, decision := none } } }

/-- What follows the end of a load for the homing or the decision that waits for it (R145, R147). A load that outlived its homing
and fails in a WHEEL_WAIT with decision NONE leaves that wait's reason as it is: R145 does not say (DESIGN CHOICE, unsafe: log 47). -/
def afterLoad (req : LoadRequest) (good : Bool) (s : State) : State :=
  match s.seq.mech with
  | .homing =>
    match s.seq.homingWait with
    | .ownLoad hub => if good then homingOver s else enterWheelWait .unknown hub s
    | .otherLoad hub => compareWheel hub s
    | .none | .header _ => s
  | .wheelWait =>
    match s.mem.wait with
    | none => s
    | some w =>
      match w.decision with
      | none => s
      | some d =>
        if d = req then
          if good then endWheelWait s
          else { s with mem := { s.mem with wait := some { w with reason := .unknown, decision := none } } }
        else fitWheel w.hub d true s
  | .off | .ready | .busy | .suspended | .interlocked | .fault | .standby => s

/-- A load ends without a table: the active table is kept, the provisional flag is cleared, WHEEL_UNKNOWN is set (R145). -/
def loadFails (req : LoadRequest) (s : State) : State :=
  afterLoad req false (setLatch .wheelUnknown { s with mem := { s.mem with provisional := false } })

/-- A load ends with a valid table: the revision, the replacement, the bound ID, WHEEL_CHANGED (R145). The "mounted hub ID" of a
WHEEL-ASSIGN load is the hub that was mounted when the request was taken, also when the wait record has since been discarded (DESIGN
CHOICE, unsafe: log 40). A load that outlived its homing or its decision and ends in a later WHEEL_WAIT replaces the active table there
too, as R145 has it, where R147 says that the active table stays; the table in force stays the one from before the wait (R12; DESIGN
CHOICE, unsafe: log 50). -/
def loadSucceeds (req : LoadRequest) (t : WheelTable) (s : State) : State :=
  let s := replaceTable t s
  afterLoad req true
    (setLatch .wheelChanged
      { s with mem := { s.mem with boundId := req.assignHub.getD t.id, provisional := false } })

/-- The end of a header read: a good header is copied, makes the ROM usable and spelling AVAILABLE, which may make the WORD
condition true (R151, R137, R54); otherwise the ROM is unusable,
spelling is lost (R138) and a waiting load fails (R150). A comparison that waited is made (R144). -/
def headerEnds (h : Option RomHeader) (s : State) : State :=
  let s := { s with mem := { s.mem with header := h, transaction := none } }
  let s :=
    match h with
    | some _ => judgeWord (wordCondition s) { s with spell := { s.spell with availability := .available } }
    | none =>
      let s := spellingLost s
      match s.mem.loadWaiting with
      | some req => loadFails req { s with mem := { s.mem with loadWaiting := none } }
      | none => s
  match s.seq.mech, s.seq.homingWait with
  | .homing, .header hub => compareWheel hub s
  | _, _ => s

/-! ### NV records (R152 to R156) -/

/-- The settings in force, as the settings record holds them (R152). -/
def settingsInForce (s : State) : SettingsRecord where
  line := s.store.settings
  impression := s.seq.setting
  spellEnable := s.spell.enabled
  beeperEnable := s.mon.beeperEnable
  idleMinutes := s.mon.idleMinutes
  config := s.mon.config
  lamps := s.mon.lamps.map (·.assignment)

/-- The bytes of page `n` of a record. -/
def pageOf (record : List Byte) (n : Nat) : List Byte := (record.drop (16 * n)).take 16

/-- Settings pages to write: those not known or not equal to the image, in address order (R153). -/
def settingsPages (image : List Byte) (known : List Bool) (record : List Byte) : List Nat :=
  (List.range 4).filter fun n => !(known.getD n false && decide (pageOf image n = pageOf record n))

/-- A settings save ends: its deferred reply is queued, ACK or NV_FAIL (R155, R190). -/
def answerSave (good : Bool) (s : State) : State :=
  match s.link.save with
  | none => s
  | some tag =>
    let f := if good then replyFrame 0x1F tag [] else refuseFrame 0x1F tag .nvFail
    { s with link := { s.link with output := s.link.output ++ [f], save := none } }

/-- The save at the head of the NV class ends, good or failed (R154, R155). -/
def saveEnds (good : Bool) (s : State) : State :=
  let s := setLatchIf (!good) .nvFail s
  match s.mem.nv with
  | .saveSettings p :: rest =>
    let known := match good, p with
      | false, some p => s.mem.pageKnown.set (p.pages.headD 0) false
      | _, _ => s.mem.pageKnown
    answerSave good { s with mem := { s.mem with nv := rest, pageKnown := known } }
  | .saveList _ :: rest => { s with mem := { s.mem with nv := rest } }
  | .readSettings :: _ | .readList :: _ | [] => s

/-- The progress of the save at the head of the NV class. -/
def nvProgress (m : MemoryLink) : Option SaveProgress :=
  match m.nv with
  | .saveSettings p :: _ | .saveList p :: _ => p
  | _ => none

/-- Replace the progress of the save at the head of the NV class. -/
def withProgress (p : SaveProgress) (s : State) : State :=
  { s with
    mem := { s.mem with
      nv := match s.mem.nv with
        | .saveSettings _ :: rest => .saveSettings (some p) :: rest
        | .saveList _ :: rest => .saveList (some p) :: rest
        | nv => nv } }

/-- A list save is queued, unless one that has not started is (R136, R150). -/
def queueListSave (s : State) : State :=
  if s.mem.nv.any (fun i => i == .saveList none) then s
  else { s with mem := { s.mem with nv := s.mem.nv ++ [.saveList none] } }

/-- The restored or default settings are put in force, and the Line Store opens its first line: the display is ON (R28,
R156, R168, R177). A pattern already sounding plays on when the record brings beeper enable no: R176 says it falls silent of SET-LAYOUT
alone (DESIGN CHOICE, unsafe: log 42). -/
def applySettings (r : SettingsRecord) (s : State) : State :=
  { s with
    store := { s.store with settings := r.line, openLine := freshLine r.line }
    seq := { s.seq with setting := r.impression }
    spell := { s.spell with enabled := r.spellEnable }
    mon :=
      { s.mon with
        beeperEnable := r.beeperEnable, idleMinutes := r.idleMinutes, config := r.config
        lamps := r.lamps.map fun f => { assignment := f, level := false } }
    disp := { s.disp with state := .on, blinkOn := true, winStart := 0 }
    mem := { s.mem with settingsRead := true } }

/-- A power-on record read ends with its bytes, or abandoned (R156, Table 7-5). -/
def recordReadEnds (bytes : Option (List Byte)) (s : State) : State :=
  match s.mem.nv with
  | .readSettings :: rest =>
    let s := { s with mem := { s.mem with nv := rest, transaction := none } }
    match bytes, bytes.bind parseSettings with
    | some bs, some r =>
      applySettings r { s with mem := { s.mem with image := bs, pageKnown := List.replicate 4 true } }
    | _, _ =>
      setLatch .nvDefaults
        (applySettings SettingsRecord.defaults { s with mem := { s.mem with pageKnown := List.replicate 4 false } })
  | .readList :: rest =>
    let s := { s with mem := { s.mem with nv := rest, transaction := none, listRead := true } }
    match bytes.bind parseList with
    | some ws => { s with spell := { s.spell with userList := ws } }
    | none => setLatch .nvDefaults { s with spell := { s.spell with userList := [] } }
  | .saveSettings _ :: _ | .saveList _ :: _ | [] => s

/-! ### The arbiter (R152a) -/

/-- A transaction is granted. -/
def grantJob (j : BusJob) (s : State) : State :=
  { s with mem := { s.mem with transaction := some { job := j, mark := false } } }

/-- The NV class is granted: a read, or a save's next write or read-back. A save that starts builds its record (R153, R136);
with no page to write it ends at once (R155). The grant counter becomes 0 (log 20). -/
def grantNv (s : State) : State :=
  let s := { s with mem := { s.mem with grantCounter := 0 } }
  match s.mem.nv with
  | [] => s
  | .readSettings :: _ | .readList :: _ => grantJob .nvRead s
  | .saveSettings (some p) :: _ | .saveList (some p) :: _ => grantJob (if p.readback then .nvReadback else .nvWrite) s
  | .saveSettings none :: _ =>
    let record := buildSettings (settingsInForce s)
    let pages := settingsPages s.mem.image s.mem.pageKnown record
    if pages.isEmpty then saveEnds true s
    else grantJob .nvWrite (withProgress { record := record, pages := pages, readback := false, retried := false } s)
  | .saveList none :: _ =>
    grantJob .nvWrite
      (withProgress
        { record := buildList s.spell.userList, pages := List.range 64, readback := false, retried := false } s)

/-- The arbiter grants while the bus is free and something waits (R150, R152a). A waiting load whose ID the ROM does not list ends
as failed, without a transaction (R150, log 19). -/
def grantFuel : Nat → State → State
  | 0, s => s
  | fuel + 1, s =>
    if s.mem.transaction.isSome then s
    else if s.mem.headerWaiting then grantJob .header { s with mem := { s.mem with headerWaiting := false } }
    else
      match s.mem.loadWaiting with
      | some req =>
        let s := { s with mem := { s.mem with loadWaiting := none } }
        if romLists s.mem.header req.id then grantJob (.load req) s else grantFuel fuel (loadFails req s)
      | none =>
        if !s.mem.nv.isEmpty && (decide (s.mem.grantCounter = 4) || !s.mem.dictWaiting) then grantFuel fuel (grantNv s)
        else if s.mem.dictWaiting then
          grantJob .dictionary
            { s with mem := { s.mem with dictWaiting := false, grantCounter := min 4 (s.mem.grantCounter + 1) } }
        else s

/-- The next grant is made. -/
def grantBus (s : State) : State := grantFuel 6 s

/-- A transaction is abandoned after its two-tick limit (R151b, Table 7-5). -/
def abandonTransaction (s : State) : State :=
  match s.mem.transaction with
  | none => s
  | some t =>
    let s := setLatch .memFault { s with mem := { s.mem with transaction := none } }
    match t.job with
    | .header => headerEnds none s
    | .load req => loadFails req s
    | .dictionary => spellingLost s
    | .nvRead => recordReadEnds none s
    | .nvWrite | .nvReadback => saveEnds false s

/-- The two memories on the bus (Table 0-7: MSR selects the ROM, MSE the EEPROM). -/
inductive BusMemory where
  | rom | eeprom
  deriving DecidableEq, Repr

/-- The run of bytes a transaction reads or writes; `sent` are the bytes of a write. -/
structure BusRun where
  memory : BusMemory
  address : Nat
  count : Nat
  sent : List Byte := []
  deriving DecidableEq, Repr

/-- The ROM offset of an ID's table: the first used entry that lists it (R142). -/
def tableOffset (h : RomHeader) (id : Nat) : Nat :=
  ((h.wheels.find? fun w => w.1 == id && w.2 != 0).map (·.2)).getD 0

/-- The run of the save at the head of the NV class: its current page (R154, Tables 11-5 and 11-6). -/
def saveRun (writes : Bool) (m : MemoryLink) : Option BusRun :=
  let run := fun (base : Nat) (p : SaveProgress) =>
    { memory := .eeprom, address := base + 16 * p.pages.headD 0, count := Config.pageBytes
      sent := if writes then pageOf p.record (p.pages.headD 0) else [] : BusRun }
  match m.nv with
  | .saveSettings (some p) :: _ => some (run 0 p)
  | .saveList (some p) :: _ => some (run Config.settingsBytes p)
  | .saveSettings none :: _ | .saveList none :: _ | .readSettings :: _ | .readList :: _ | [] => none

/-- What the transaction in flight asks of the memories: the ROM header at 0 (Table 11-7), a table at its directory offset
(R145), the directory entry or the bucket of a lookup (R126), a record of the EEPROM (R152) or a page of a save (R154). -/
def busRun (s : State) : Option BusRun :=
  match s.mem.transaction.map Transaction.job with
  | none => none
  | some .header => some { memory := .rom, address := 0, count := Config.headerBytes }
  | some (.load req) =>
    s.mem.header.map fun h => { memory := .rom, address := tableOffset h req.id, count := Config.tableBytes }
  | some .dictionary =>
    match s.spell.lookup, s.mem.header with
    | some { bucket := some a, .. }, _ => some { memory := .rom, address := a, count := 256 }
    | some { letters := w, .. }, some h =>
      some { memory := .rom, address := h.directory + 3 * bucketNumber w, count := 3 }
    | some { bucket := none, .. }, none | none, _ => none
  | some .nvRead =>
    match s.mem.nv with
    | .readSettings :: _ => some { memory := .eeprom, address := 0, count := Config.settingsBytes }
    | .readList :: _ => some { memory := .eeprom, address := Config.settingsBytes, count := Config.listBytes }
    | .saveSettings _ :: _ | .saveList _ :: _ | [] => none
  | some .nvWrite => saveRun true s.mem
  | some .nvReadback => saveRun false s.mem

/-- A memory transaction is waiting or in flight (R179). -/
def MemoryLink.busy (m : MemoryLink) : Bool :=
  m.transaction.isSome || m.headerWaiting || m.loadWaiting.isSome || m.dictWaiting || !m.nv.isEmpty

end Sys2Proof.Machine
end

