-- ==== Sys2Proof/Machine/Monitor.lean ====
section
/-! DEFINITION. The Monitor (09_sensors_events_and_power.md): lamps, the idle countdown, what ends every
event, standby and wake, sensor configuration. -/

namespace Sys2Proof.Machine

/-- The value of an automatic lamp function; absent for HOST (Table 9-6). -/
def lampValue (s : State) : LampFunction → Option Bool
  | .host => none
  | .fault => some (s.seq.mech == .fault)
  | .flaggedWord => some (!s.spell.flagged.isEmpty)
  | .typeAheadHigh => some (decide (Config.typeAheadHigh ≤ s.store.unprinted))
  | .standby => some (s.mon.power == .standby)

/-- A lamp line driven by its function's value (R177). -/
def driveLamp (s : State) (l : Lamp) : Lamp := { l with level := (lampValue s l.assignment).getD l.level }

/-- The automatic lamp lines follow their functions (R177). -/
def refreshLamps (s : State) : State := { s with mon.lamps := s.mon.lamps.map (driveLamp s) }

/-- The conditions of the idle countdown (R179). -/
def idleHolds (s : State) : Bool :=
  s.mon.idleMinutes != 0 && s.mon.power == .running && s.seq.jobs.isEmpty && !s.store.anyHeld && !s.mem.busy
    && s.link.drain.isNone && s.seq.mech == .ready && !s.seq.parking

/-- The full value of the idle countdown, seconds (R179). -/
def fullIdle (s : State) : Nat := s.mon.idleMinutes * 60

/-- The idle countdown is judged: it starts from the full value when its conditions come to hold, and is stopped
while they do not (R179; log 29). -/
def refreshIdle (s : State) : State :=
  { s with mon.idle := if idleHolds s then some (s.mon.idle.getD (fullIdle s)) else none }

/-- A running idle countdown restarts from the full value (R179). -/
def restartIdle (s : State) : State := { s with mon.idle := s.mon.idle.map fun _ => fullIdle s }

/-- What each block does before an event is over: checks are taken (R125), the bus is granted (R152a), the
release pass runs (R55), the sequencer goes on (R66), the type-ahead events (R59) and DRAIN (R61) are judged, and lamps,
idle countdown, display and pending set follow (R177, R179, R158, R173). `before` is the unprinted count before the event. Where one
event ends an outstanding SAVE-SETTINGS at its grant and an outstanding DRAIN, the SAVE-SETTINGS reply stands first: R190 does not say
which of the two operations ends first (DESIGN CHOICE, unsafe: log 48). -/
def eventEnd (before : Nat) (s : State) : State :=
  let s := seqUpdate (releasePass (grantBus (takeChecks s)))
  noticeCheck (refreshDisplay (refreshIdle (refreshLamps (drainCheck (judgeTypeAhead before s)))))

/-- The end of an event that changes only what lamps, countdown, display and notices follow. -/
def quietEnd (s : State) : State := noticeCheck (refreshDisplay (refreshIdle (refreshLamps s)))

/-! ### Standby and wake -/

/-- Standby begins (R180, R94, R167): the latch and its NOTICE, the beeper silent, drive removed, the display off, the
transmitter left with the frames already queued. -/
def enterStandby (s : State) : State :=
  let s :=
    setLatch .standby
      { s with
        mon := { s.mon with power := .standby, idle := none, beeper := none }
        seq :=
          { s.seq with
            mech := .standby, petal := none, ribbonLifter := .down, tapeLifter := .down, carTarget := none, parking := false }
        disp := switchOff s.disp }
  let s := noticeCheck (refreshLamps s)
  { s with link.standbyTx := s.link.output.length }

/-- The part wakes (R181, R95, R167): the latch, the display on, the wheel homed or the interlock entered. The event's
end follows at the caller. -/
def wake (s : State) : State :=
  homeOrInterlock false
    (setLatch .wake
      { s with
        mon := { s.mon with power := .running }
        disp := switchOn s.disp
        link := { s.link with standbyTx := 0 } })

/-- The receipt of a frame's start byte: the wake event in standby, otherwise a restart of the idle countdown (R184,
R179, R181). -/
def startByteEvent (s : State) : State :=
  match s.mon.power with
  | .standby => eventEnd s.store.unprinted (wake s)
  | .running => restartIdle s

/-! ### Sensors -/

/-- The level of a sensor. -/
def sensorLevel (v : SensorLevels) : Sensor → Bool
  | .cover => v.cover
  | .paper => v.paper
  | .ribbonEnd => v.ribbonEnd
  | .tapeEnd => v.tapeEnd
  | .carriageHome => v.carriageHome
  | .wheelIndex => v.wheelIndex

/-- Replace the level of a sensor. -/
def withSensorLevel (v : SensorLevels) (b : Bool) : Sensor → SensorLevels
  | .cover => { v with cover := b }
  | .paper => { v with paper := b }
  | .ribbonEnd => { v with ribbonEnd := b }
  | .tapeEnd => { v with tapeEnd := b }
  | .carriageHome => { v with carriageHome := b }
  | .wheelIndex => { v with wheelIndex := b }

/-- The configuration of a sensor. -/
def SensorSetups.get (v : SensorSetups) : Sensor → SensorSetup
  | .cover => v.cover
  | .paper => v.paper
  | .ribbonEnd => v.ribbonEnd
  | .tapeEnd => v.tapeEnd
  | .carriageHome => v.carriageHome
  | .wheelIndex => v.wheelIndex

/-- Replace the configuration of a sensor. -/
def SensorSetups.set (v : SensorSetups) (c : SensorSetup) : Sensor → SensorSetups
  | .cover => { v with cover := c }
  | .paper => { v with paper := c }
  | .ribbonEnd => { v with ribbonEnd := c }
  | .tapeEnd => { v with tapeEnd := c }
  | .carriageHome => { v with carriageHome := c }
  | .wheelIndex => { v with wheelIndex := c }

/-- The change latch of a sensor (R171). -/
def changeLatch : Sensor → Latch
  | .cover => .chgCover
  | .paper => .chgPaper
  | .ribbonEnd => .chgRibbon
  | .tapeEnd => .chgTape
  | .carriageHome => .chgHome
  | .wheelIndex => .chgIndex

/-- An edge to a level is selected (R170). -/
def EdgeSelect.selects (e : EdgeSelect) (level : Bool) : Bool :=
  match e with
  | .rise => level
  | .fall => !level
  | .both => true

end Sys2Proof.Machine
end

