-- ==== Sys2Proof/Machine/MemoryEvents.lean ====
section
/-! DEFINITION. The meanings of the memory-link rows: a transaction in flight ends with the bytes read (section 7.4 on).
A row without its transaction in flight changes nothing (log 4). -/

namespace Sys2Proof.Machine

/-- The job of the transaction in flight. -/
def MemoryLink.busJob (m : MemoryLink) : Option BusJob := m.transaction.map (·.job)

/-- The bus is freed. -/
def freeBus (s : State) : State := { s with mem := { s.mem with transaction := none } }

/-- A header read ends (R151, R137, R138). -/
def endHeaderRead (bytes : List Byte) (s : State) : State :=
  if s.mem.busJob = some .header ∧ bytes.length = Config.headerBytes then
    eventEnd s.store.unprinted (headerEnds (parseHeader bytes) s)
  else s

/-- HEADER_READ_END (R151). -/
def execHeaderReadEnd (bytes : List Byte) (s : State) : Host.Outcome State Fault Refusal :=
  .next (endHeaderRead bytes s)

/-- A table load completes, valid or invalid (R145). -/
def endTableLoad (bytes : List Byte) (s : State) : State :=
  match s.mem.busJob with
  | some (.load req) =>
    if bytes.length = Config.tableBytes then
      let free := freeBus s
      eventEnd s.store.unprinted
        (match parseTable req.id bytes with
          | some t => loadSucceeds req t free
          | none => loadFails req free)
    else s
  | _ => s

/-- TABLE_LOAD_END (R145). -/
def execTableLoadEnd (bytes : List Byte) (s : State) : Host.Outcome State Fault Refusal :=
  .next (endTableLoad bytes s)

/-- The directory read of a lookup ends: an empty entry is a MISS, another starts the bucket read, a stale read ends
(R126, R132). -/
def directoryEnds (k : Lookup) (address : Nat) (s : State) : State :=
  if k.stale then { s with spell := { s.spell with lookup := none } }
  else if address = 0 then lookupEnds false s
  else
    { s with
      spell := { s.spell with lookup := some { k with bucket := some address } }
      mem := { s.mem with dictWaiting := true } }

/-- A directory read ends (R126). -/
def endDirectoryRead (bytes : List Byte) (s : State) : State :=
  match s.mem.busJob, s.spell.lookup with
  | some .dictionary, some k =>
    if k.bucket = none ∧ bytes.length = 3 then
      eventEnd s.store.unprinted (directoryEnds k (addressAt bytes 0) (freeBus s))
    else s
  | _, _ => s

/-- DIRECTORY_READ_END (R126). -/
def execDirectoryReadEnd (bytes : List Byte) (s : State) : Host.Outcome State Fault Refusal :=
  .next (endDirectoryRead bytes s)

/-- A bucket read ends at the first event of R127 in the bytes read; bytes that reach none are not its end (log 22). -/
def endBucketRead (bytes : List Byte) (s : State) : State :=
  match s.mem.busJob, s.spell.lookup with
  | some .dictionary, some k =>
    if k.bucket = none then s
    else
      match scanBucket k.letters bytes 257 0 with
      | none => s
      | some found => eventEnd s.store.unprinted (lookupEnds found (freeBus s))
  | _, _ => s

/-- BUCKET_READ_END (R127). -/
def execBucketReadEnd (bytes : List Byte) (s : State) : Host.Outcome State Fault Refusal :=
  .next (endBucketRead bytes s)

/-- The bytes of the power-on record read at the head of the NV class (R152). -/
def recordLength (m : MemoryLink) : Option Nat :=
  match m.nv with
  | .readSettings :: _ => some Config.settingsBytes
  | .readList :: _ => some Config.listBytes
  | _ => none

/-- A power-on record read ends (R156). -/
def endRecordRead (bytes : List Byte) (s : State) : State :=
  if s.mem.busJob = some .nvRead ∧ recordLength s.mem = some bytes.length then
    eventEnd s.store.unprinted (recordReadEnds (some bytes) s)
  else s

/-- NV_RECORD_READ_END (R156). -/
def execNvRecordReadEnd (bytes : List Byte) (s : State) : Host.Outcome State Fault Refusal :=
  .next (endRecordRead bytes s)

/-- A page write ends and its read-back is next (R154 steps 1 and 2). -/
def endPageWrite (s : State) : State :=
  match s.mem.busJob, nvProgress s.mem with
  | some .nvWrite, some p => eventEnd s.store.unprinted (withProgress { p with readback := true } (freeBus s))
  | _, _ => s

/-- PAGE_WRITE_END (R154). -/
def execPageWriteEnd (s : State) : Host.Outcome State Fault Refusal := .next (endPageWrite s)

/-- A settings page read back equal updates the image and becomes known (R154 step 3). -/
def pageVerified (n : Nat) (bytes : List Byte) (s : State) : State :=
  match s.mem.nv with
  | .saveSettings _ :: _ =>
    { s with
      mem :=
        { s.mem with
          image := s.mem.image.take (16 * n) ++ bytes ++ s.mem.image.drop (16 * n + 16)
          pageKnown := s.mem.pageKnown.set n true } }
  | _ => s

/-- What a read-back of 16 bytes does to a save (R154 steps 3 to 5). -/
def readbackEnds (p : SaveProgress) (bytes : List Byte) (s : State) : State :=
  let n := p.pages.headD 0
  if bytes = pageOf p.record n then
    let s := pageVerified n bytes s
    match p.pages.tail with
    | [] => saveEnds true s
    | rest => withProgress { p with pages := rest, readback := false, retried := false } s
  else if p.retried then saveEnds false s
  else withProgress { p with readback := false, retried := true } s

/-- A page read-back ends (R154). -/
def endPageReadback (bytes : List Byte) (s : State) : State :=
  match s.mem.busJob, nvProgress s.mem with
  | some .nvReadback, some p =>
    if bytes.length = Config.pageBytes then
      eventEnd s.store.unprinted (readbackEnds p bytes (freeBus s))
    else s
  | _, _ => s

/-- PAGE_READBACK_END (R154). -/
def execPageReadbackEnd (bytes : List Byte) (s : State) : Host.Outcome State Fault Refusal :=
  .next (endPageReadback bytes s)

end Sys2Proof.Machine
end

