-- ==== Sys2Proof/Machine/Correction.lean ====
section
/-! DEFINITION. Lift-off correction (05_lift_off_correction.md): removal of one cell, the erases, crossing back,
and the correction reply. -/

namespace Sys2Proof.Machine

/-! ### What a removal needs -/

/-- The head job is in flight and is the STRIKE of this cell. -/
def strikeInFlight (q : Sequencer) (seq : Nat) : Bool :=
  q.inFlight && match q.jobs with
    | { kind := .strike (.cell n), .. } :: _ => n == seq
    | _ => false

/-- The head job is in flight and is the FEED of this return. -/
def feedInFlight (q : Sequencer) (seq : Nat) : Bool :=
  q.inFlight && match q.jobs with
    | { kind := .feed _ _ (some n) _, .. } :: _ => n == seq
    | _ => false

/-- What becomes of the job of a cell that is struck (Table 5-1). -/
inductive Removal where
  /-- No job (R102). -/
  | free
  /-- The STRIKE is withdrawn (R103). -/
  | withdraw
  /-- The STRIKE is detached and a pending LIFT appended (R104). -/
  | detach
  /-- A LIFT with the made impressions (R105). -/
  | lift
  deriving DecidableEq, Repr

/-- The row of Table 5-1 for a non-return cell. -/
def removalOf (q : Sequencer) (c : Cell) : Removal :=
  if c.strikes then
    match c.state with
    | .held => .free
    | .queued => if strikeInFlight q c.seq then .detach else .withdraw
    | .striking => .detach
    | .printed => if c.impressions.any (·.made) then .lift else .free
  else .free

/-- A cell whose removal needs a job place (R106, R112). -/
def needsPlace (q : Sequencer) (c : Cell) : Bool :=
  match removalOf q c with
  | .detach | .lift => true
  | .free | .withdraw => false

/-! ### The word tracker (R107, R108) -/

/-- A word is reopened (R108): it is the open word with its generation raised, its letter cells are UNCHECKED and carry WORD
while the WORD condition holds and they are HELD, and the Spelling Checker withdraws its check and its flag. -/
def reopenWord (w : WordRef) (s : State) : State :=
  let w' : WordRef := { number := w.number, generation := (w.generation + 1) % 256 }
  let hold := wordCondition s
  let s := withdrawWord w.number s
  { s with
    store :=
      { s.store.mapCells (fun c =>
          if c.word = some w then
            { c with
              word := some w'
              mark := some .unchecked
              holds := if hold = true ∧ c.state = .held then { c.holds with word := true } else c.holds }
          else c) with
        openWord := some w' } }

/-- The word tracker is set back on the removal of the last cell X of a line, `before` the cells before it, nearest
first (R107, Table 5-3). -/
def untrack (x : Cell) (before : List Cell) (s : State) : State :=
  if s.store.pendingApostrophe = some x.seq then { s with store := { s.store with pendingApostrophe := none } }
  else if x.word.isSome ∧ x.word = s.store.openWord then
    if before.any (fun c => c.word == x.word) then s
    else { s with store := { s.store with openWord := none } }
  else
    match before with
    | [] => s
    | c :: rest =>
      match c.word with
      | some w =>
        let s := reopenWord w s
        { s with store := { s.store with pendingApostrophe := none } }
      | none =>
        match rest with
        | [] => s
        | d :: _ =>
          match d.word with
          | some w =>
            if c.kind = .glyph ∧ c.code = apostrophe then
              let s := reopenWord w s
              { s with store := { s.store with pendingApostrophe := some c.seq } }
            else s
          | none => s

/-! ### Removal of a cell (R101) -/

/-- The OPEN line without its last cell X, its segment brought up to date (R109). -/
def dropLast (x : Cell) (l : Line) : Line :=
  let shorter := { l with cells := l.cells.dropLast }
  match l.segment with
  | none => shorter
  | some g =>
    if g.tab = x.seq then { shorter with segment := none }
    else
      ({ shorter with segment := some { g with cells := g.cells.filter (· != x.seq) } } : Line).refreshSegment

/-- The made impressions of a list, in list order (R105). -/
def madeOf (l : List Impression) : List Impression := l.filter (·.made)

/-- X's job is dealt with (R102 to R105). -/
def removeJob (x : Cell) (q : Sequencer) : Sequencer :=
  match removalOf q x with
  | .free => q
  | .withdraw => { q with jobs := q.jobs.filter fun j => j.kind != .strike (.cell x.seq) }
  | .detach =>
    { q with
      jobs :=
        q.jobs.map (fun j =>
          if j.kind = .strike (.cell x.seq) then { j with kind := .strike (.detached (x.position.getD 0) x.impressions) }
          else j)
          ++ [{ kind := .lift (x.position.getD 0) (madeOf x.impressions) true 0 }] }
  | .lift => { q with jobs := q.jobs ++ [{ kind := .lift (x.position.getD 0) (madeOf x.impressions) false 0 }] }

/-- The last cell of the OPEN line is removed (R101). -/
def removeLast (s : State) : State :=
  match s.store.openLine.cells.reverse with
  | [] => s
  | x :: before =>
    let s := untrack x before s
    { s with
      seq := removeJob x s.seq
      store := { s.store with openLine := dropLast x s.store.openLine } }

/-- The last `n` cells of the OPEN line are removed, last first. -/
def removeCells : Nat → State → State
  | 0, s => s
  | n + 1, s => removeCells n (removeLast s)

/-! ### Crossing back (R113 to R117) -/

/-- The line reopened with the placement of its cells (R114, R117), its return taken out. `line` still has its placement
record; R117's end of escapement uses it (log 18). -/
def reopenedLine (line : Line) (returnHeld : Bool) : Line :=
  let body := line.cells.dropLast
  let l := { line with state := .opened, reach := false, cells := body, placement := none, segment := none }
  if line.alignment = .flushLeft then l
  else if body.any (fun c => c.state != .held) then
    { l with
      alignment := .flushLeft
      cells := placeFrom (fun c => c.state == .held) { line with cells := body : Line }.releasedEnd body }
  else if returnHeld then
    { l with cells := body.map fun c => { c with position := none, holds := { c.holds with line := true } } }
  else l

/-- The return's job is dealt with: nothing, its FEED withdrawn, or left to complete without a report (R114 to R116,
R78). -/
def removeFeed (r : Cell) (q : Sequencer) : Sequencer :=
  let linked : Job → Bool := fun j =>
    match j.kind with
    | .feed _ _ (some n) _ => n == r.seq
    | _ => false
  if feedInFlight q r.seq then
    { q with
      jobs := q.jobs.map fun j =>
        match j.kind with
        | .feed d n (some m) k => if m = r.seq then { j with kind := .feed d n none k } else j
        | _ => j }
  else { q with jobs := q.jobs.filter fun j => !linked j }

/-- A crossing back that appends a CROSS (R116). -/
def crossNeedsPlace (q : Sequencer) (r : Cell) : Bool := r.state == .printed || feedInFlight q r.seq

/-- Crossing back into the line before, whose return is `r` (R113). -/
def crossBack (line : Line) (r : Cell) (s : State) : State :=
  let cross := crossNeedsPlace s.seq r
  let older := s.store.earlier.dropLast.map fun l => { l with reach := false }
  let s := { s with store := { s.store with earlier := older, openLine := line } }
  let s := untrack r line.cells.dropLast.reverse s
  let l := reopenedLine s.store.openLine (r.state == .held)
  let q := removeFeed r s.seq
  let job : Job := { kind := .cross l.spacing l.typingPoint 0 0 }
  { s with
    store := { s.store with openLine := l }
    seq := if cross then { q with jobs := q.jobs ++ [job] } else q
    disp := { s.disp with winStart := 0 } }

/-- The line into which CORRECT may cross back, with its return (R100). -/
def crossTarget (s : LineStore) : Option (Line × Cell) :=
  match s.earlier.getLast? with
  | none => none
  | some l => if l.reach then l.cells.getLast?.map fun r => (l, r) else none

/-! ### The requests -/

/-- The payload of a correction reply (Table 5-2, Table 11-3). -/
def correctionReply (removed lifts : Nat) (cross crossed : Bool) (s : State) : List Byte :=
  [BitVec.ofNat 8 removed, BitVec.ofNat 8 lifts, BitVec.ofNat 8 (cross.toNat + 2 * crossed.toNat)]
    ++ bytes16 s.store.freeCells ++ [BitVec.ofNat 8 s.store.unprinted]
    ++ bytes16 (Config.maxJobs - s.seq.jobs.length)

/-- A correction refused FULL: the latch and the long beep (R98, R106, R112). -/
def correctionFull (kind tag : Byte) (s : State) : State :=
  answer (refuseFrame kind tag .full) (noticeCheck (beep .long (setLatch .full s)))

/-- The last `n` cells of the OPEN line are taken out by one request, when their jobs fit (R98, R106, R112). -/
def eraseLast (kind tag : Byte) (n : Nat) (s : State) : State :=
  let chosen := s.store.openLine.cells.drop (s.store.openLine.cells.length - n)
  let places := chosen.countP (needsPlace s.seq)
  if n = 0 then answer (refuseFrame kind tag .nothing) s
  else if Config.maxJobs < s.seq.jobs.length + places then correctionFull kind tag s
  else
    let s := eventEnd s.store.unprinted (removeCells n s)
    answer (replyFrame kind tag (correctionReply n places false false s)) s

/-- CORRECT on an empty OPEN line: crossing back, or NOTHING (R100). -/
def correctAcross (tag : Byte) (s : State) : State :=
  match crossTarget s.store with
  | none => answer (refuseFrame 0x04 tag .nothing) s
  | some (l, r) =>
    let cross := crossNeedsPlace s.seq r
    if cross && decide (Config.maxJobs ≤ s.seq.jobs.length) then correctionFull 0x04 tag s
    else
      let s := eventEnd s.store.unprinted (crossBack l r s)
      answer (replyFrame 0x04 tag (correctionReply 1 0 cross true s)) s

/-- CORRECT (R100). -/
def doCorrect (tag : Byte) (s : State) : State :=
  if s.store.openLine.cells.isEmpty then correctAcross tag s else eraseLast 0x04 tag 1 s

/-- How many cells WORD-ERASE takes from the end of a line, the cells given last first (R110). -/
def wordEraseCount (cells : List Cell) : Nat :=
  let spaces := (cells.takeWhile fun c => c.kind == .space).length
  match cells.drop spaces with
  | [] => spaces
  | c :: rest =>
    if c.kind = .tab then spaces + 1
    else spaces + ((c :: rest).takeWhile fun d => d.kind != .space && d.kind != .tab).length

/-- WORD-ERASE (R110). -/
def doWordErase (tag : Byte) (s : State) : State :=
  eraseLast 0x05 tag (wordEraseCount s.store.openLine.cells.reverse) s

/-- LINE-ERASE (R111). -/
def doLineErase (tag : Byte) (s : State) : State := eraseLast 0x06 tag s.store.openLine.cells.length s

end Sys2Proof.Machine
end

