-- ==== Sys2Proof/Machine/Keys.lean ====
section
/-! DEFINITION. KEYS (R10 to R24): the entry checks in stage order, the entry of a cell, the entry of a return,
and the reply. -/

namespace Sys2Proof.Machine

/-! ### Classes and checks -/

/-- What a key is from stage 2 on (R11). -/
inductive KeyClass where
  | glyph | space | tab | ret (para : Bool)
  deriving DecidableEq, Repr

/-- The class of a key code; absent for a code that is no key code (R11). -/
def classOfCode (c : Nat) : Option KeyClass :=
  if 33 ≤ c ∧ c ≤ 126 ∨ 160 ≤ c ∧ c ≤ 255 then some .glyph
  else if c = 32 then some .space
  else if c = 9 then some .tab
  else if c = 13 then some (.ret false)
  else if c = 14 then some (.ret true)
  else none

/-- A line whose cells wait for its close and which takes no TAB (R11, R18). -/
def Alignment.centred : Alignment → Bool
  | .center | .flushRight => true
  | .flushLeft | .justify => false

/-- Stage 1: the class of a key in a line; a TAB in a CENTER or FLUSH_RIGHT line is a SPACE (R11). -/
def keyClass (l : Line) (c : Nat) : Option KeyClass :=
  (classOfCode c).map fun k => if k = .tab ∧ l.alignment.centred = true then .space else k

/-- A refusal of a key: its code and the latch it sets; a latch goes with the long beep (Table 1-7). -/
structure KeyRefusal where
  code : RefusalCode
  latch : Option Latch
  deriving DecidableEq, Repr

/-- Stage 2: the glyph and the underscore on the wheel in force (R12). -/
def refusesGlyph (t : WheelTable) (k : KeyClass) (code : Nat) (underline : Bool) : Bool :=
  match k with
  | .glyph => !t.glyphAvailable code || (underline && !t.onWheel t.underscore)
  | .space => underline && !t.onWheel t.underscore
  | .tab | .ret _ => false

/-- Stage 3: the type-ahead limit (R13). -/
def refusesTypeAhead (s : LineStore) (k : KeyClass) : Bool :=
  match k with
  | .glyph | .space | .tab => decide (Config.typeAheadLimit ≤ s.unprinted)
  | .ret _ => false

/-- Stage 4: room in the line list (R14). -/
def refusesLine (s : LineStore) (k : KeyClass) : Bool :=
  match k with
  | .glyph | .space | .tab => false
  | .ret _ => decide (Config.maxLines ≤ s.earlier.length + 1) && (s.earlier.head?.map (·.state)) != some .done

/-- Stage 5: pool and line capacity (R15). -/
def refusesCapacity (s : LineStore) (k : KeyClass) : Bool :=
  match k with
  | .glyph | .space | .tab =>
    decide (Config.lineCells - 1 ≤ s.openLine.cells.length) || decide (freeAfterDrop false 2 s < 2)
  | .ret _ => decide (freeAfterDrop true 1 s < 1)

/-- The target of a TAB: the first stop beyond the typing point (R16). -/
def tabTarget (s : LineStore) : Option TabStop :=
  s.settings.tabs.find? fun t => decide (s.openLine.typingPoint < t.position)

/-- Stage 6: a TAB needs a stop (R16). -/
def refusesTab (s : LineStore) (k : KeyClass) : Bool :=
  match k with
  | .tab => (tabTarget s).isNone
  | .glyph | .space | .ret _ => false

/-- The width a key's cell enters with (Table 1-1, R16). -/
def keyWidth (t : WheelTable) (s : LineStore) (k : KeyClass) (code : Nat) : Nat :=
  match k with
  | .glyph => t.glyphWidth code
  | .space => t.spaceWidthOf
  | .tab => ((tabTarget s).map fun d => d.position - s.openLine.typingPoint).getD 0
  | .ret _ => 0

/-- A GLYPH key whose code is the decimal character in force (R22). -/
def isDecimalKey (s : LineStore) (k : KeyClass) (code : Nat) : Bool :=
  k == .glyph && decide (code = s.settings.decimalChar)

/-- The open segment a GLYPH or SPACE key joins: not for the decimal character, which ends it (R22, R52). -/
def joinedSegment (s : LineStore) (k : KeyClass) (code : Nat) : Option Segment :=
  match k with
  | .glyph | .space => if isDecimalKey s k code then none else s.openLine.segment
  | .tab | .ret _ => none

/-- The typing point a key would leave in a FLUSH_LEFT or JUSTIFY line (R17): inside an open segment its provisional
end. -/
def leavesAt (t : WheelTable) (s : LineStore) (k : KeyClass) (code : Nat) : Nat :=
  let w := keyWidth t s k code
  match joinedSegment s k code with
  | some g => segmentStart g (segmentWidth s.openLine g + w) + segmentWidth s.openLine g + w
  | none => s.openLine.typingPoint + w

/-- A key's cell that grows an open segment leftward: the segment still fits between its point and its stop, so the typing
point stays at the stop (R17, R45). -/
def growsLeftward (t : WheelTable) (s : LineStore) (k : KeyClass) (code : Nat) : Bool :=
  match joinedSegment s k code with
  | some g => decide (g.point + (segmentWidth s.openLine g + keyWidth t s k code) ≤ g.stop)
  | none => false

/-- Stage 7: margins; a segment cell that grows leftward is not refused, even past the right margin (R17, R18). -/
def refusesMargin (t : WheelTable) (s : LineStore) (k : KeyClass) (code : Nat) (release : Bool) : Bool :=
  let l := s.openLine
  match k with
  | .ret _ => false
  | .glyph | .space | .tab =>
    if l.alignment.centred then decide (l.right - l.left < l.naturalWidth + keyWidth t s k code)
    else
      !growsLeftward t s k code && decide (l.right < leavesAt t s k code)
        && !(release && decide (leavesAt t s k code ≤ Config.rightStop))

/-- Stages 2 to 7 in the order of Table 1-7. -/
def refuseClass (t : WheelTable) (s : LineStore) (k : KeyClass) (r : KeyRec) : Option KeyRefusal :=
  let code := r.code.toNat
  if refusesGlyph t k code r.underline then some { code := .noGlyph, latch := some .noGlyph }
  else if refusesTypeAhead s k then some { code := .full, latch := some .full }
  else if refusesLine s k then some { code := .full, latch := some .full }
  else if refusesCapacity s k then some { code := .lineFull, latch := none }
  else if refusesTab s k then some { code := .noStop, latch := none }
  else if refusesMargin t s k code r.release then some { code := .margin, latch := some .marginLock }
  else none

/-- The entry checks of a key: its class, or the refusal (R10 to R18). -/
def checkKey (s : State) (r : KeyRec) : Except KeyRefusal KeyClass :=
  match keyClass s.store.openLine r.code.toNat with
  | none => .error { code := .badValue, latch := none }
  | some k =>
    match refuseClass (tableInForce s) s.store k r with
    | some e => .error e
    | none => .ok k

/-! ### Entry of a cell -/

/-- A TAB or the decimal character ends an open segment before it is entered (R22, R46, R52). -/
def endsSegment (s : LineStore) (k : KeyClass) (code : Nat) : Bool :=
  k == .tab || isDecimalKey s k code

/-- End the open segment of the OPEN line, ALIGN_CLAMP when its start is clamped (R46). -/
def endOpenSegment (s : State) : State :=
  setLatchIf s.store.openLine.segmentClamped .alignClamp
    { s with store := { s.store with openLine := s.store.openLine.endSegment } }

/-- The kind of the cell of a key. -/
def KeyClass.kind : KeyClass → CellKind
  | .glyph => .glyph
  | .space => .space
  | .tab => .tab
  | .ret false => .ret
  | .ret true => .paraRet

/-- Where the decimal character that ends an open segment stands: edge to edge behind the segment's other cells, at the stop
when the segment is not clamped (R22, R46). -/
def decimalPoint (s : LineStore) (k : KeyClass) (code : Nat) : Option Nat :=
  if isDecimalKey s k code then
    s.openLine.segment.map fun g => segmentStart g (segmentWidth s.openLine g) + segmentWidth s.openLine g
  else none

/-- The cell a GLYPH, SPACE or TAB key enters, before the word tracker (Tables 1-1 and 1-8); `decimalAt` is its position when it
is the decimal character of a segment (R46, R47). -/
def newCell (t : WheelTable) (s : LineStore) (k : KeyClass) (r : KeyRec) (decimalAt : Option Nat) : Cell :=
  let inSegment := (joinedSegment s k r.code.toNat).isSome
  { seq := s.newSeq
    kind := k.kind
    code := if k = .space then 32 else r.code.toNat
    bold := k != .tab && r.bold
    underline := k != .tab && r.underline
    width := keyWidth t s k r.code.toNat
    position :=
      match decimalAt with
      | some p => some p
      | none => if s.openLine.alignment = .flushLeft ∧ inSegment = false then some s.openLine.typingPoint else none
    holds := { line := s.openLine.alignment != .flushLeft, decimal := inSegment } }

/-- The OPEN line with a new cell: appended, in its open segment or opening one (R19 steps 4 and 6, R22, R45). -/
def appendCell (s : LineStore) (k : KeyClass) (c : Cell) : Line :=
  let l := s.openLine
  let grown := { l with cells := l.cells ++ [c] }
  match k with
  | .tab =>
    match tabTarget s with
    | some { position := p, kind := .decimal } =>
      { grown with segment := some { stop := p, point := l.typingPoint, tab := c.seq, cells := [] } }
    | some { kind := .left, .. } | none => grown
  | .glyph | .space =>
    if c.holds.decimal then
      ({ grown with segment := l.segment.map fun g => { g with cells := g.cells ++ [c.seq] } } : Line).refreshSegment
    else grown
  | .ret _ => grown

/-- A cell becomes a letter cell of a word, UNCHECKED, with WORD while the WORD condition holds and it is HELD (R3,
R23, R53). -/
def joinWord (w : WordRef) (seq : Nat) (s : State) : State :=
  let hold := wordCondition s
  { s with
    store := s.store.mapCell seq fun c =>
      { c with
        word := some w
        mark := some .unchecked
        holds := { c.holds with word := hold && c.state == .held } } }

/-- A new word opens with the next number (R23). -/
def openNewWord (s : State) : State :=
  let n := s.store.newWordNumber
  { s with store := { s.store with openWord := some { number := n, generation := 0 }, nextWord := nextNumber n } }

/-- The word tracker on the entry of cell X (Table 1-10). -/
def trackEntry (x : Cell) (s : State) : State :=
  let delimiter := match s.store.pendingApostrophe with
    | some _ => apostrophe
    | none => x.code
  if x.kind = .glyph ∧ isLetterCode x.code = true then
    let s := if s.store.openWord.isNone then openNewWord s else s
    match s.store.openWord with
    | none => s
    | some w =>
      let s := match s.store.pendingApostrophe with
        | some a =>
          joinWord w a { s with store := { s.store with pendingApostrophe := none } }
        | none => s
      joinWord w x.seq s
  else if x.kind = .glyph ∧ x.code = apostrophe ∧ s.store.openWord.isSome = true
      ∧ s.store.pendingApostrophe.isNone = true then
    { s with store := { s.store with pendingApostrophe := some x.seq } }
  else completeWord delimiter s

/-- The bell check after the entry of a GLYPH cell (R21). -/
def bellCheck (x : Cell) (s : State) : State :=
  let l := s.store.openLine
  if x.kind = .glyph ∧ l.bellRung = false ∧ s.store.settings.bellWidth ≠ 0
      ∧ l.right < l.typingPoint + s.store.settings.bellWidth then
    beep .short
      (setLatch .bell { s with store := { s.store with openLine := { l with bellRung := true } } })
  else s

/-- The entry of a GLYPH, SPACE or TAB key (R19, steps 1 to 7). -/
def enterCell (k : KeyClass) (r : KeyRec) (s : State) : State :=
  let s := dropLines (linesToDrop false 2 s.store) s
  let decimalAt := decimalPoint s.store k r.code.toNat
  let s := if endsSegment s.store k r.code.toNat then endOpenSegment s else s
  let c := newCell (tableInForce s) s.store k r decimalAt
  let s :=
    { s with store := { s.store with openLine := appendCell s.store k c, nextSeq := nextNumber c.seq } }
  bellCheck c (trackEntry c s)

/-! ### Entry of a return -/

/-- The closed line: CLOSED, reach set, its LINE holds cleared, placed by its alignment (R20 step 5, R51). Answers whether
JUSTIFY_SKIP is set. -/
def closeLine (l : Line) (nominal : Nat) : Line × Bool :=
  let p := l.place nominal
  ({ p.1 with
      state := .closed
      reach := true
      cells := p.1.cells.map fun c => { c with holds := { c.holds with line := false } } }, p.2)

/-- The entry of a RETURN or PARA-RETURN key (R20, steps 1 to 6); the window starts at the new line's first cell (R159). A word
with a pending apostrophe is handed over with the return as its delimiter, as step 4 has it; Table 1-10 names the apostrophe (DESIGN
CHOICE, safe: log 45). -/
def enterReturn (para : Bool) (s : State) : State :=
  let s := dropLines (linesToDrop true 1 s.store) s
  let c : Cell :=
    { seq := s.store.newSeq, kind := if para then .paraRet else .ret, code := if para then 14 else 13 }
  let s :=
    { s with
      store :=
        { s.store with
          openLine := { s.store.openLine with cells := s.store.openLine.cells ++ [c] }
          nextSeq := nextNumber c.seq } }
  let s := completeWord c.code (endOpenSegment s)
  let closed := closeLine s.store.openLine (tableInForce s).spaceWidthOf
  setLatchIf closed.2 .justifySkip
    { s with
      store :=
        { s.store with
          earlier := s.store.earlier ++ [closed.1]
          openLine := freshLine s.store.settings }
      disp := { s.disp with winStart := 0 } }

/-! ### The request -/

/-- A key that passed its checks is entered; an overlay ends, and the event ends with the release pass (R19, R20,
R166). -/
def enterKey (k : KeyClass) (r : KeyRec) (s : State) : State :=
  let before := s.store.unprinted
  let s := { s with disp := endOverlay s.disp }
  let s := match k with
    | .ret para => enterReturn para s
    | .glyph | .space | .tab => enterCell k r s
  eventEnd before s

/-- A refused key: its latch and the long beep, and the NOTICE they may cause (R10, R176; log 12). -/
def refuseKey (e : KeyRefusal) (s : State) : State :=
  match e.latch with
  | none => s
  | some l => noticeCheck (beep .long (setLatch l s))

/-- The records of a KEYS request in order, up to the first refusal (R10): the keys accepted, the refusal, the state. -/
def enterKeys : List KeyRec → State → Nat × Option RefusalCode × State
  | [], s => (0, none, s)
  | r :: rs, s =>
    match checkKey s r with
    | .error e => (0, some e.code, refuseKey e s)
    | .ok k =>
      let rest := enterKeys rs (enterKey k r s)
      (rest.1 + 1, rest.2)

/-- The payload of the KEYS reply (R10, Table 11-3). -/
def keysReply (accepted : Nat) (refusal : Option RefusalCode) (s : State) : List Byte :=
  [BitVec.ofNat 8 accepted, (refusal.map RefusalCode.byte).getD 0] ++ bytes16 s.store.freeCells
    ++ [BitVec.ofNat 8 s.store.unprinted]

/-- KEYS (R10). -/
def doKeys (tag : Byte) (recs : List KeyRec) (s : State) : State :=
  if 1 ≤ recs.length ∧ recs.length ≤ 16 then
    let out := enterKeys recs s
    answer (replyFrame 0x03 tag (keysReply out.1 out.2.1 out.2.2)) out.2.2
  else answer (refuseFrame 0x03 tag .badLength) s

end Sys2Proof.Machine
end

