-- ==== Sys2Proof/Machine/Settings.lean ====
section
/-! DEFINITION. Requests on settings and work waited for: tab stops (R25), margins (R26), layout (R27), INDEX
(R93), DRAIN (R60), SAVE-SETTINGS (R155). -/

namespace Sys2Proof.Machine

/-- Refuse the request in hand (R191). -/
def refuse (kind tag : Byte) (code : RefusalCode) (s : State) : State := answer (refuseFrame kind tag code) s

/-- Reply to the request in hand (R188). -/
def reply (kind tag : Byte) (payload : List Byte) (s : State) : State := answer (replyFrame kind tag payload) s

/-! ### Tab stops (R25) -/

/-- Insert a stop in order of position. -/
def insertStop (t : TabStop) : List TabStop → List TabStop
  | [] => [t]
  | x :: xs => if t.position < x.position then t :: x :: xs else x :: insertStop t xs

/-- Replace the tab table. -/
def withTabs (tabs : List TabStop) (s : State) : State :=
  { s with store := { s.store with settings := { s.store.settings with tabs := tabs } } }

/-- SET-TAB (R25). Its values are looked at before the room: a bad position or kind with a full table is BAD_VALUE, an order that R25
does not give (DESIGN CHOICE, unsafe: log 55). -/
def doSetTab (tag : Byte) (position : Half) (kind : Byte) (s : State) : State :=
  let tabs := s.store.settings.tabs
  let p := position.toNat
  match tabKindOfByte kind with
  | none => refuse 0x0A tag .badValue s
  | some k =>
    if Config.rightStop < p then refuse 0x0A tag .badValue s
    else if tabs.any (fun t => t.position == p) then
      reply 0x0A tag [] (withTabs (tabs.map fun t => if t.position = p then { t with kind := k } else t) s)
    else if Config.maxTabs ≤ tabs.length then refuse 0x0A tag .full s
    else reply 0x0A tag [] (withTabs (insertStop { position := p, kind := k } tabs) s)

/-- CLEAR-TAB (R25). -/
def doClearTab (tag : Byte) (position : Half) (s : State) : State :=
  let tabs := s.store.settings.tabs
  if tabs.any (fun t => t.position == position.toNat) then
    reply 0x0B tag [] (withTabs (tabs.filter fun t => t.position != position.toNat) s)
  else refuse 0x0B tag .badValue s

/-- CLEAR-ALL-TABS (R25). -/
def doClearAllTabs (tag : Byte) (s : State) : State := reply 0x0C tag [] (withTabs [] s)

/-! ### Margins and layout (R26, R27) -/

/-- SET-MARGINS (R26). -/
def doSetMargins (tag : Byte) (left right : Half) (s : State) : State :=
  if marginsValid left.toNat right.toNat then
    let empty := s.store.openLine.cells.isEmpty
    let set := { s.store.settings with left := left.toNat, right := right.toNat }
    let l := s.store.openLine
    let s :=
      { s with
        store :=
          { s.store with
            settings := set
            openLine := if empty then { l with left := left.toNat, right := right.toNat } else l } }
    reply 0x08 tag [yesNo empty] (eventEnd s.store.unprinted s)
  else refuse 0x08 tag .badValue s

/-- The fields of a SET-LAYOUT with the values they name (R27). -/
structure LayoutChange where
  alignment : Option Alignment
  lineSpacing : Option Nat
  impression : Option Nat
  releaseMode : Option ReleaseMode
  decimalChar : Option Nat
  beeperEnable : Option Bool
  bellWidth : Option Nat
  idleMinutes : Option Nat
  deriving DecidableEq, Repr

/-- An optional field checked: absent stays absent, a value out of range fails (R27). -/
def checkField {α : Type} (parse : Byte → Option α) : Option Byte → Option (Option α)
  | none => some none
  | some b => (parse b).map some

/-- Every field present is checked first (R27). -/
def checkLayout (f : LayoutFields) : Option LayoutChange := do
  let alignment ← checkField alignmentOfByte f.alignment
  let lineSpacing ← checkField spacingOfByte f.lineSpacing
  let impression ← checkField (rangeOfByte 1 4) f.impression
  let releaseMode ← checkField releaseModeOfByte f.releaseMode
  let decimalChar ← checkField decimalOfByte f.decimalChar
  let beeperEnable ← checkField boolOfByte f.beeperEnable
  let bellWidth ← checkField (rangeOfByte 0 120) f.bellWidth
  let idleMinutes ← checkField (rangeOfByte 0 60) f.idleMinutes
  some
    { alignment := alignment, lineSpacing := lineSpacing, impression := impression, releaseMode := releaseMode
      decimalChar := decimalChar, beeperEnable := beeperEnable, bellWidth := bellWidth, idleMinutes := idleMinutes }

/-- The OPEN line takes alignment and spacing when it holds no cells (R27). -/
def layoutLine (c : LayoutChange) (l : Line) : Line :=
  if l.cells.isEmpty then
    { l with alignment := c.alignment.getD l.alignment, spacing := c.lineSpacing.getD l.spacing }
  else l

/-- The Line Store's part of a SET-LAYOUT (R27). -/
def layoutStore (c : LayoutChange) (s : LineStore) : LineStore :=
  { s with
    settings :=
      { s.settings with
        alignment := c.alignment.getD s.settings.alignment
        spacing := c.lineSpacing.getD s.settings.spacing
        releaseMode := c.releaseMode.getD s.settings.releaseMode
        decimalChar := c.decimalChar.getD s.settings.decimalChar
        bellWidth := c.bellWidth.getD s.settings.bellWidth }
    openLine := layoutLine c s.openLine }

/-- The Monitor's part (R27, R176, R179): a beeper disabled falls silent, and idle minutes changed to another value
that is not 0 restart a running countdown. -/
def layoutMonitor (c : LayoutChange) (m : Monitor) : Monitor :=
  let minutes := c.idleMinutes.getD m.idleMinutes
  { m with
    beeperEnable := c.beeperEnable.getD m.beeperEnable
    beeper := if c.beeperEnable = some false then none else m.beeper
    idleMinutes := minutes
    idle := if minutes = m.idleMinutes then m.idle else m.idle.map fun _ => minutes * 60 }

/-- A checked SET-LAYOUT is applied (R27); a change of the release mode judges the WORD condition (R54). -/
def applyLayout (c : LayoutChange) (s : State) : State :=
  let before := wordCondition s
  judgeWord before
    { s with
      store := layoutStore c s.store
      seq := { s.seq with setting := c.impression.getD s.seq.setting }
      mon := layoutMonitor c s.mon }

/-- SET-LAYOUT (R27). -/
def doSetLayout (tag : Byte) (f : LayoutFields) (s : State) : State :=
  match checkLayout f with
  | none => refuse 0x09 tag .badValue s
  | some c =>
    let applied := s.store.openLine.cells.isEmpty && (c.alignment.isSome || c.lineSpacing.isSome)
    reply 0x09 tag [yesNo applied] (eventEnd s.store.unprinted (applyLayout c s))

/-! ### INDEX, DRAIN, SAVE-SETTINGS -/

/-- INDEX (R93). -/
def doIndex (tag direction count : Byte) (s : State) : State :=
  if 2 ≤ direction.toNat ∨ count.toNat = 0 ∨ 4 < count.toNat then refuse 0x07 tag .badValue s
  else if s.store.openLine.cells.isEmpty = false ∨ s.store.anyHeld = true then refuse 0x07 tag .notEmpty s
  else if Config.maxJobs ≤ s.seq.jobs.length then refuse 0x07 tag .full s
  else
    let job : Job := { kind := .feed (direction == 0) (4 * count.toNat) none 0 }
    let s := clearReachBefore { s with seq := { s.seq with jobs := s.seq.jobs ++ [job] } }
    reply 0x07 tag [] (eventEnd s.store.unprinted s)

/-- The marks of DRAIN (R60). -/
def markDrain (s : State) : State :=
  { s with
    store := s.store.mapCells fun c => if c.state = .printed then c else { c with drainMark := true }
    seq := { s.seq with jobs := s.seq.jobs.map fun j => { j with marked := true } } }

/-- DRAIN (R60): refused BUSY while one is outstanding; otherwise its marks, and the reply at once or the tag kept. -/
def doDrain (tag : Byte) (s : State) : State :=
  if s.link.drain.isSome then refuse 0x12 tag .busy s
  else
    let s := markDrain s
    if drainWaits s then refreshIdle { s with link := { s.link with drain := some tag, hand := none } }
    else reply 0x12 tag [] s

/-- SAVE-SETTINGS (R155). -/
def doSaveSettings (tag : Byte) (s : State) : State :=
  if s.link.save.isSome then refuse 0x1F tag .busy s
  else
    eventEnd s.store.unprinted
      { s with
        mem := { s.mem with nv := s.mem.nv ++ [.saveSettings none] }
        link := { s.link with save := some tag, hand := none } }

end Sys2Proof.Machine
end

