-- ==== Sys2Proof/Machine/Words.lean ====
section
/-! DEFINITION. Requests to the Spelling Checker (06_spelling.md): SPELL-ENABLE, SPELL-ACCEPT, SPELL-ADD,
USER-WORD-READ, USER-WORD-DELETE. -/

namespace Sys2Proof.Machine

/-- Spelling is turned off (Table 6-5): every request ends with SKIP, a lookup goes on as a stale read, the WORD
condition is judged. -/
def spellOff (s : State) : State :=
  let before := wordCondition s
  judgeWord before
    (skipAllChecks
      { s with spell := { s.spell with enabled := false, lookup := s.spell.lookup.map fun k => { k with stale := true } } })

/-- Spelling is turned on, or retried (Table 6-5). -/
def spellOn (s : State) : State :=
  let before := wordCondition s
  judgeWord before (requestHeader { s with spell := { s.spell with enabled := true } })

/-- SPELL-ENABLE by Table 6-5 (R135b). -/
def doSpellEnable (tag b : Byte) (s : State) : State :=
  match boolOfByte b with
  | none => refuse 0x0D tag .badValue s
  | some on =>
    let s' :=
      if on then
        if s.spell.enabled && s.spell.availability != .unavailable then s else spellOn s
      else if s.spell.enabled then spellOff s
      else s
    reply 0x0D tag [] (eventEnd s.store.unprinted s')

/-- The flagged count as a byte. -/
def flaggedByte (s : State) : Byte := BitVec.ofNat 8 s.spell.flagged.length

/-- A flagged word is accepted (R133), and the event ends. -/
def acceptWord (f : Flagged) (s : State) : State :=
  eventEnd s.store.unprinted (applyVerdict f.word f.letters .accepted s)

/-- SPELL-ACCEPT (R133). -/
def doSpellAccept (tag : Byte) (s : State) : State :=
  match s.spell.flagged with
  | [] => refuse 0x0E tag .notHeld s
  | f :: _ =>
    let s := acceptWord f s
    reply 0x0E tag (flaggedByte s :: wordBytes f.letters) s

/-- Replace the user word list, which queues a list save (R136). -/
def withUserList (ws : List (List Nat)) (s : State) : State :=
  queueListSave { s with spell := { s.spell with userList := ws } }

/-- SPELL-ADD (R134). -/
def doSpellAdd (tag : Byte) (s : State) : State :=
  match s.spell.flagged with
  | [] => refuse 0x0F tag .notHeld s
  | f :: _ =>
    if s.spell.userList.contains f.letters then
      let s := acceptWord f s
      answer (refuseFrame 0x0F tag .duplicate [1, flaggedByte s]) s
    else if Config.maxUserWords ≤ s.spell.userList.length then refuse 0x0F tag .listFull s
    else
      let s := acceptWord f (withUserList (insertWord f.letters s.spell.userList) s)
      reply 0x0F tag (flaggedByte s :: BitVec.ofNat 8 s.spell.userList.length :: wordBytes f.letters) s

/-- USER-WORD-READ (R135). -/
def doUserWordRead (tag n : Byte) (s : State) : State :=
  if 39 < n.toNat then refuse 0x10 tag .badValue s
  else
    match s.spell.userList[n.toNat]? with
    | none => refuse 0x10 tag .notFound s
    | some w => reply 0x10 tag (BitVec.ofNat 8 s.spell.userList.length :: wordBytes w) s

/-- A code that USER-WORD-DELETE folds (R135). -/
def isWordCode (c : Nat) : Bool := isLetterCode c || decide (c = apostrophe)

/-- USER-WORD-DELETE (R135). -/
def doUserWordDelete (tag : Byte) (codes : List Byte) (s : State) : State :=
  if codes.length < 2 ∨ 24 < codes.length ∨ codes.any (fun c => !isWordCode c.toNat) = true then
    refuse 0x11 tag .badValue s
  else
    let w := codes.map fun c => foldCode c.toNat
    if s.spell.userList.contains w then
      let s := eventEnd s.store.unprinted (withUserList (s.spell.userList.filter (· != w)) s)
      reply 0x11 tag [BitVec.ofNat 8 s.spell.userList.length] s
    else refuse 0x11 tag .notFound s

end Sys2Proof.Machine
end

