-- ==== Sys2Proof/Machine/Wheels.lean ====
section
/-! DEFINITION. Host decisions about the mechanism: WHEEL-ASSIGN, RESUME and DISCARD in WHEEL_WAIT (R147 to
R149a), and RECOVER (R88). -/

namespace Sys2Proof.Machine

/-- The hub of a wait record that takes a decision, or the refusal (R147). -/
def decisionHub (s : State) : Except RefusalCode Nat :=
  match s.seq.mech, s.mem.wait with
  | .wheelWait, some w => if w.decision.isSome then .error .busy else .ok w.hub
  | _, _ => .error .notWaiting

/-- WHEEL-ASSIGN (R148): acknowledged, then fitted; the state of the wait is looked at before the ID (log 13). -/
def doWheelAssign (tag id : Byte) (s : State) : State :=
  match decisionHub s with
  | .error e => refuse 0x13 tag e s
  | .ok hub =>
    if 31 < id.toNat then refuse 0x13 tag .badValue s
    else if tableSource s.mem id.toNat = .absent then refuse 0x13 tag .notFound s
    else
      let s := reply 0x13 tag [] s
      eventEnd s.store.unprinted
        (fitWheel hub { id := id.toNat, assignHub := some hub, homing := false } false s)

/-- The mounted wheel is fitted as RESUME does (R149a). -/
def fitMounted (hub : Nat) (s : State) : State :=
  eventEnd s.store.unprinted (fitWheel hub { id := hub, assignHub := none, homing := false } false s)

/-- RESUME (R149a). -/
def doResume (tag : Byte) (s : State) : State :=
  match decisionHub s with
  | .error e => refuse 0x14 tag e s
  | .ok hub => fitMounted hub (reply 0x14 tag [] s)

/-! ### DISCARD (R149) -/

/-- The cells of a line that DISCARD keeps and those it removes, given whether the cut has been passed: from the oldest
cell not PRINTED on, every non-return cell is removed. -/
def splitCells : Bool → List Cell → List Cell × List Cell
  | _, [] => ([], [])
  | cut, c :: cs =>
    let cut := cut || c.state != .printed
    let r := splitCells cut cs
    if cut && !c.isReturn then (r.1, c :: r.2) else (c :: r.1, r.2)

/-- A cell of some cells is not PRINTED: the cut lies before what follows them. -/
def cutIn (cs : List Cell) : Bool := cs.any fun c => c.state != .printed

/-- The lines with the cells DISCARD removes taken out, and those cells (R149). -/
def splitLines : Bool → List Line → List Line × List Cell
  | _, [] => ([], [])
  | cut, l :: ls =>
    let p := splitCells cut l.cells
    let r := splitLines (cut || cutIn l.cells) ls
    ({ l with cells := p.1 } :: r.1, p.2 ++ r.2)

/-- An open segment after DISCARD (R149 step 5): it ends with its TAB, otherwise it loses its cells. -/
def discardSegment (removed : List Cell) (l : Line) : Line :=
  let gone : Nat → Bool := fun n => removed.any fun c => c.seq == n
  match l.segment with
  | none => l
  | some g =>
    if gone g.tab then { l with segment := none }
    else ({ l with segment := some { g with cells := g.cells.filter fun n => !gone n } } : Line).refreshSegment

/-- A STRIKE that DISCARD removes: of a removed cell, or detached (R149 step 1). -/
def discardsJob (removed : List Cell) (j : Job) : Bool :=
  match j.kind with
  | .strike (.cell n) => removed.any fun c => c.seq == n
  | .strike (.detached _ _) => true
  | .lift _ _ _ _ | .feed _ _ _ _ | .cross _ _ _ _ => false

/-- The jobs left by DISCARD: STRIKEs out, a pending LIFT fixed (R149 steps 1 and 2, R77). -/
def discardJobs (removed : List Cell) (q : Sequencer) : Sequencer :=
  let headGone := match q.jobs with
    | j :: _ => discardsJob removed j
    | [] => false
  { q with
    jobs := fixPending (q.jobs.filter fun j => !discardsJob removed j)
    inFlight := q.inFlight && !headGone
    phase := if headGone then .rest else q.phase }

/-- The open word is dropped without a hand-off; its letter cells still in the store are SKIP (R149 step 4). -/
def dropOpenWord (s : State) : State :=
  let s :=
    match s.store.openWord with
    | none => s
    | some w => markWord w .skip s
  { s with store := { s.store with openWord := none, pendingApostrophe := none } }

/-- DISCARD's removal (R149 steps 1 to 5). Answers the cells and the jobs removed. -/
def discardText (s : State) : State × Nat × Nat :=
  let e := splitLines false s.store.earlier
  let o := splitCells (s.store.earlier.any fun l => cutIn l.cells) s.store.openLine.cells
  let removed := e.2 ++ o.2
  let q := discardJobs removed s.seq
  let jobsGone := s.seq.jobs.length - q.jobs.length
  let s :=
    { s with
      store :=
        { s.store with earlier := e.1, openLine := discardSegment removed { s.store.openLine with cells := o.1 } }
      seq := q }
  (dropOpenWord (cutWords (wordNumbers removed) s), removed.length, jobsGone)

/-- DISCARD (R149): the removal and its release pass, the reply, then the wheel fitted as RESUME does. R149 does not say whether the two
are one event for R173: each ends an event, so a NOTICE may stand before the reply and another behind it (DESIGN CHOICE, unsafe: log 53). -/
def doDiscard (tag : Byte) (s : State) : State :=
  match decisionHub s with
  | .error e => refuse 0x15 tag e s
  | .ok hub =>
    let d := discardText s
    let s' := eventEnd s.store.unprinted d.1
    fitMounted hub (reply 0x15 tag (bytes16 d.2.1 ++ [BitVec.ofNat 8 d.2.2]) s')

/-- RECOVER (R88): acknowledged at once, then homing, or INTERLOCKED with the cover open. -/
def doRecover (tag : Byte) (s : State) : State :=
  if s.seq.mech = .fault then
    let s := reply 0x16 tag [] s
    eventEnd s.store.unprinted (homeOrInterlock true s)
  else refuse 0x16 tag .notWaiting s

end Sys2Proof.Machine
end

