-- ==== Sys2Proof/Machine/Signals.lean ====
section
/-! DEFINITION. Requests to the Display Controller and the Monitor, and the reports: DISPLAY-OVERLAY,
DISPLAY-RELEASE (R165, R166), the event requests (R174), SENSOR-CONFIG (R170), LAMP (R178), BEEP (R176), STATUS
(R175), IDENTIFY (R192). -/

namespace Sys2Proof.Machine

/-! ### Overlay -/

/-- Write codes into a frame of codes from index `at0`. -/
def writeAt (at0 : Nat) (codes frame : List Nat) : List Nat :=
  frame.take at0 ++ codes ++ frame.drop (at0 + codes.length)

/-- The fields of DISPLAY-OVERLAY lie in their ranges (R165). -/
def overlayValid (timeout first : Byte) (codes : List Byte) : Bool :=
  decide (timeout.toNat ≤ 25) && decide (1 ≤ first.toNat) && decide (first.toNat ≤ 40)
    && codes.all (fun c => decide (32 ≤ c.toNat)) && decide (first.toNat + codes.length ≤ 41)

/-- DISPLAY-OVERLAY (R165). -/
def doDisplayOverlay (tag timeout first : Byte) (codes : List Byte) (s : State) : State :=
  if overlayValid timeout first codes then
    let base := if first.toNat = 1 then some (List.replicate 40 32) else s.disp.overlay
    match base with
    | none => refuse 0x17 tag .nothing s
    | some frame =>
      let s :=
        { s with
          disp :=
            { s.disp with
              overlay := some (writeAt (first.toNat - 1) (codes.map BitVec.toNat) frame)
              overlayTimer := if timeout = 0 then none else some timeout.toNat } }
      reply 0x17 tag [] (refreshDisplay s)
  else refuse 0x17 tag .badValue s

/-- DISPLAY-RELEASE (R166). -/
def doDisplayRelease (tag : Byte) (s : State) : State :=
  if s.disp.overlay.isSome then
    reply 0x18 tag [1] (refreshDisplay { s with disp := endOverlay s.disp })
  else reply 0x18 tag [0] s

/-! ### Events (R174) -/

/-- The two bytes of a half, low first (R195). -/
def halfBytes (h : Half) : List Byte := [lowByte h, highByte h]

/-- EVENTS-READ (R174). -/
def doEventsRead (tag group : Byte) (s : State) : State :=
  match groupOfByte group with
  | none => refuse 0x19 tag .badValue s
  | some g => reply 0x19 tag (group :: (halfBytes (s.mon.latches.get g) ++ halfBytes (s.mon.masks.get g))) s

/-- EVENTS-CLEAR (R174). -/
def doEventsClear (tag group : Byte) (set : Half) (s : State) : State :=
  match groupOfByte group with
  | none => refuse 0x1A tag .badValue s
  | some g =>
    let s :=
      noticeCheck { s with mon := { s.mon with latches := s.mon.latches.set (s.mon.latches.get g &&& ~~~set) g } }
    reply 0x1A tag (group :: (halfBytes (s.mon.latches.get g) ++ [s.mon.pendingSet.byte])) s

/-- EVENT-MASK (R174); bits beyond the group's latches are ignored (R195). -/
def doEventMask (tag group : Byte) (set : Half) (s : State) : State :=
  match groupOfByte group with
  | none => refuse 0x1B tag .badValue s
  | some g =>
    let s := noticeCheck { s with mon := { s.mon with masks := s.mon.masks.set (set &&& GroupBits.all.get g) g } }
    reply 0x1B tag (group :: (halfBytes (s.mon.masks.get g) ++ [s.mon.pendingSet.byte])) s

/-! ### Sensors, lamps, beeper -/

/-- SENSOR-CONFIG (R170). -/
def doSensorConfig (tag sensor edge change wakeup : Byte) (s : State) : State :=
  match sensorOfByte sensor, edgeOfNat edge.toNat, boolOfByte change, boolOfByte wakeup with
  | some n, some e, some c, some w =>
    reply 0x1C tag [yesNo (sensorLevel s.mon.levels n)]
      { s with mon := { s.mon with config := s.mon.config.set { edge := e, change := c, wake := w } n } }
  | _, _, _, _ => refuse 0x1C tag .badValue s

/-- A lamp line after a LAMP request: the assignment first, then the level on a HOST line (R178). -/
def lampAfter (s : State) (assignment : Option LampFunction) (level : Option Bool) (l : Lamp) : Lamp :=
  let l := driveLamp s { l with assignment := assignment.getD l.assignment }
  if l.assignment = .host then { l with level := level.getD l.level } else l

/-- The field "level applied" of the LAMP reply (R178, Table 11-3). -/
def lampApplied (l : Lamp) (level : Option Bool) : Byte :=
  match level with
  | none => 2
  | some _ => if l.assignment = .host then 1 else 0

/-- LAMP (R178). -/
def doLamp (tag line : Byte) (assignment level : Option Byte) (s : State) : State :=
  match s.mon.lamps[line.toNat]?, checkField lampFunctionOfByte assignment, checkField boolOfByte level with
  | some l, some a, some v =>
    let l' := lampAfter s a v l
    reply 0x1D tag [l'.assignment.byte, yesNo l'.level, lampApplied l' v]
      { s with mon := { s.mon with lamps := s.mon.lamps.set line.toNat l' } }
  | _, _, _ => refuse 0x1D tag .badValue s

/-- BEEP (R176). -/
def doBeep (tag pattern : Byte) (s : State) : State :=
  match patternOfByte pattern with
  | none => refuse 0x1E tag .badValue s
  | some p => reply 0x1E tag [yesNo s.mon.beeperEnable] (beep p s)

/-! ### Reports -/

/-- The lamp levels as a set byte. -/
def lampsByte (ls : List Lamp) : Byte :=
  BitVec.ofNat 8 (((List.range 4).map fun i => if (ls[i]?.map (·.level)).getD false then 2 ^ i else 0).sum)

/-- The 25 bytes of the STATUS reply (R175, Tables 9-4 and 11-3). -/
def statusBytes (woke : Bool) (s : State) : List Byte :=
  [s.seq.mech.byte, s.seq.suspend.byte, levelsByte s.mon.levels] ++ bytes16 (s.seq.carriage.getD 0)
    ++ bytes16 s.seq.platen.toNat ++ bytes16 s.store.openLine.typingPoint
    ++ bytes16 (columnNumber (tableInForce s) s.store.openLine) ++ [BitVec.ofNat 8 s.store.unprinted]
    ++ bytes16 s.store.freeCells ++ bytes16 s.seq.jobs.length
    ++ [BitVec.ofNat 8 s.spell.queue.length, flaggedByte s, BitVec.ofNat 8 s.mem.active.id, yesNo woke]
    ++ bytes16 (s.mon.idle.getD 0xFFFF)
    ++ [s.mon.pendingSet.byte, lampsByte s.mon.lamps, BitVec.ofNat 8 s.link.errors]

/-- STATUS (R175). -/
def doStatus (tag : Byte) (woke : Bool) (s : State) : State := reply 0x02 tag (statusBytes woke s) s

/-- The 9 bytes of the IDENTIFY reply (R192, Table 11-3). -/
def identifyBytes (m : MemoryLink) : List Byte :=
  bytes16 Config.vendorCode ++ bytes16 Config.partCode ++ [BitVec.ofNat 8 Config.siliconRevision]
    ++ bytes16 ((m.header.map (·.revision)).getD 0xFFFF)
    ++ [BitVec.ofNat 8 m.active.id, m.active.kind.byte]

/-- IDENTIFY (R192). -/
def doIdentify (tag : Byte) (s : State) : State := reply 0x01 tag (identifyBytes s.mem) s

end Sys2Proof.Machine
end

