-- ==== Sys2Proof/Machine/Link.lean ====
section
/-! DEFINITION. The Control Link (10_the_control_link.md): the receiver, the input buffer, the taking of a
request and its dispatch to the owning block, the warm reset. -/

namespace Sys2Proof.Machine

/-! ### Receiving (R184 to R186) -/

/-- The link error count rises by 1 and stays at 255 (R184, R186). -/
def countError (k : ControlLink) : ControlLink := { k with errors := min 255 (k.errors + 1) }

/-- A frame error: the frame is discarded, the count rises, FRAME_ERROR is set, the receiver is HUNTING (R184). -/
def frameError (s : State) : State :=
  setLatch .frameError { s with link := { countError s.link with receiver := .hunting, rxMark := false } }

/-- A complete frame joins the input buffer, or is dropped with INPUT_OVERRUN (R186). -/
def bufferFrame (f : Frame) (s : State) : State :=
  if s.link.input.length < Config.maxInput then
    { s with link := { s.link with input := s.link.input ++ [f] } }
  else setLatch .inputOverrun { s with link := countError s.link }

/-- A start byte begins a frame (R184), with its effect on standby and the idle countdown (R181, R179). -/
def startFrame (s : State) : State :=
  let woke := s.mon.power == .standby
  startByteEvent
    { s with link := { s.link with receiver := .assembling [] false woke, rxMark := false } }

/-- The frame whose body values are complete: checked, and buffered when the values sum to 0 (R184). -/
def completeFrame (body : List Byte) (woke : Bool) (s : State) : State :=
  if byteSum body = 0 then
    bufferFrame
      { kind := body.getD 1 0, tag := body.getD 2 0, payload := (body.drop 3).dropLast, woke := woke }
      { s with link := { s.link with receiver := .hunting, rxMark := false } }
  else frameError s

/-- A body value joins the frame being assembled (R184). -/
def pushValue (v : Byte) (body : List Byte) (woke : Bool) (s : State) : State :=
  let body' := body ++ [v]
  let len := (body'.headD 0).toNat
  if len < 2 ∨ 34 < len then frameError s
  else if body'.length = len + 2 then completeFrame body' woke s
  else { s with link := { s.link with receiver := .assembling body' false woke, rxMark := false } }

/-- A received byte (R184). -/
def receive (b : Byte) (s : State) : State :=
  match s.link.receiver with
  | .hunting => if b = startByte then startFrame s else s
  | .assembling body escaped woke =>
    if b = startByte then startFrame (frameError s)
    else if escaped then
      if b = 0xF4 ∨ b = 0xF5 then pushValue (b - 0x20) body woke s else frameError s
    else if b = escapeByte then
      { s with link := { s.link with receiver := .assembling body true woke, rxMark := false } }
    else pushValue b body woke s

/-- A byte without its stop bit (R184). -/
def receiveBroken (s : State) : State :=
  match s.link.receiver with
  | .hunting => s
  | .assembling _ _ _ => frameError s

/-! ### The warm reset (R193) -/

/-- The Print Sequencer's part (R97), the state to follow being judged at the end. -/
def resetSequencer (s : State) : State :=
  let s := stopMotion s
  { s with
    seq := { s.seq with jobs := [], inFlight := false, suspend := {}, carriage := none, petal := none } }

/-- The Line Store's part (R29). -/
def resetStore (s : LineStore) : LineStore :=
  { s with
    earlier := [], openLine := freshLine s.settings, nextSeq := 1, nextWord := 1, openWord := none
    pendingApostrophe := none }

/-- The lookup after a warm reset (R140, R157, R132): a stale read goes on, waiting or not; one whose read is in flight becomes
stale; one whose read still waits belongs to a request the reset ended and is gone with it (log 35). -/
def lookupAfterReset (waits : Bool) : Option Lookup → Option Lookup
  | none => none
  | some k => if k.stale then some k else if waits then none else some { k with stale := true }

/-- The parts of the Spelling Checker and the Memory Link (R140, R157): the waiting read of a stale lookup is the only
dictionary transaction that goes on waiting. -/
def resetLookup (s : State) : State :=
  let kept := lookupAfterReset s.mem.dictWaiting s.spell.lookup
  requestHeader
    { s with
      spell := { s.spell with queue := [], flagged := [], lookup := kept }
      mem := { s.mem with dictWaiting := s.mem.dictWaiting && kept.isSome, wait := none } }

/-- The parts of the Display Controller and the Monitor (R169, R182). -/
def resetSignals (s : State) : State :=
  { s with
    disp := { endOverlay s.disp with winStart := 0 }
    mon := { s.mon with latches := GroupBits.none, pendingSet := {}, beeper := none } }

/-- The link's part (R193, R62): the waiting frames go, an outstanding DRAIN is answered with RESET. -/
def resetLink (k : ControlLink) : ControlLink :=
  match k.drain with
  | none => { k with input := [] }
  | some tag =>
    { k with input := [], drain := none, output := k.output ++ [refuseFrame 0x12 tag .reset] }

/-- The warm reset of every block, after the ACK (R193). TA_EMPTY is not set by it (R29, R59). -/
def warmReset (s : State) : State :=
  let s := resetSignals (resetLookup (resetSequencer s))
  eventEnd 0
    (homeOrInterlock true { s with store := resetStore s.store, link := resetLink s.link })

/-- RESET (R193). -/
def doReset (tag : Byte) (s : State) : State := warmReset (reply 0x20 tag [] s)

/-! ### Taking a request (R187, R188) -/

/-- The conditions for taking a frame: start-up ended, no request in hand, a free place (R187, R194). -/
def canTake (s : State) : Bool :=
  s.mem.settingsRead && s.mem.listRead && s.link.hand.isNone && decide (0 < freePlaces s.link)

/-- A checked request is handed to its owning block, which answers it (R187, Table 10-3). -/
def serve (tag : Byte) (woke : Bool) (r : Request) (s : State) : State :=
  match r with
  | .identify => doIdentify tag s
  | .status => doStatus tag woke s
  | .keys recs => doKeys tag recs s
  | .correct => doCorrect tag s
  | .wordErase => doWordErase tag s
  | .lineErase => doLineErase tag s
  | .index d c => doIndex tag d c s
  | .setMargins l r => doSetMargins tag l r s
  | .setLayout f => doSetLayout tag f s
  | .setTab p k => doSetTab tag p k s
  | .clearTab p => doClearTab tag p s
  | .clearAllTabs => doClearAllTabs tag s
  | .spellEnable b => doSpellEnable tag b s
  | .spellAccept => doSpellAccept tag s
  | .spellAdd => doSpellAdd tag s
  | .userWordRead n => doUserWordRead tag n s
  | .userWordDelete cs => doUserWordDelete tag cs s
  | .drain => doDrain tag s
  | .wheelAssign n => doWheelAssign tag n s
  | .resume => doResume tag s
  | .discard => doDiscard tag s
  | .recover => doRecover tag s
  | .displayOverlay t f cs => doDisplayOverlay tag t f cs s
  | .displayRelease => doDisplayRelease tag s
  | .eventsRead g => doEventsRead tag g s
  | .eventsClear g h => doEventsClear tag g h s
  | .eventMask g h => doEventMask tag g h s
  | .sensorConfig n e c w => doSensorConfig tag n e c w s
  | .lamp n a l => doLamp tag n a l s
  | .beep p => doBeep tag p s
  | .saveSettings => doSaveSettings tag s
  | .reset => doReset tag s

/-- A frame becomes the request in hand, which reserves a place for its reply (R187). -/
def takeInHand (f : Frame) (s : State) : State := { s with link := { s.link with hand := some f } }

/-- The frame in hand is checked (R188) and served. -/
def serveFrame (f : Frame) (s : State) : State :=
  let s := takeInHand f s
  match decodeRequest f.kind f.payload with
  | .ok r => serve f.tag f.woke r s
  | .error .unknownKind => refuse f.kind f.tag .unknownKind s
  | .error .badLength => refuse f.kind f.tag .badLength s

/-- The link takes the oldest frame of the input buffer when it can (R187). -/
def takeOldest (s : State) : State :=
  match s.link.input with
  | [] => s
  | f :: rest =>
    if canTake s then serveFrame f { s with link := { s.link with input := rest } } else s

/-- The frame a request row stands for. -/
def requestFrame (tag : Byte) (woke : Bool) (r : Request) : Frame :=
  { kind := r.kind, tag := tag, payload := r.payload, woke := woke }

/-- A request row: its frame arrives whole, its start byte wakes the part or restarts the idle countdown, and it is
taken at once when R187 allows and no older frame waits; otherwise it waits in the input buffer (log 1). -/
def hostRequest (tag : Byte) (r : Request) (s : State) : State :=
  let woke := s.mon.power == .standby
  let s := startByteEvent s
  let f := requestFrame tag woke r
  if s.link.input.isEmpty && canTake s then serve tag woke r (takeInHand f s)
  else noticeCheck (bufferFrame f s)

end Sys2Proof.Machine
end

