-- ==== Sys2Proof/Machine/MotionEvents.lean ====
section
/-! DEFINITION. The meanings of the mechanism rows (04_the_print_mechanism.md): encoder edges, settled motion,
hammer, lifters, platen, parking, homing ends and stalls. A row whose cause cannot be present changes nothing (log 4). -/

namespace Sys2Proof.Machine

/-! ### Stalls and home failures (R85 to R87) -/

/-- All motors stop in FAULT: the carriage and the petal are unknown, the triple beep sounds (R85, R87). -/
def motionFault (l : Latch) (s : State) : State :=
  let s := stopMotion s
  beep .triple
    (setLatch l { s with seq := { s.seq with mech := .fault, carriage := none, petal := none } })

/-- A home failure (R85). -/
def homeFail (s : State) : State := motionFault .homeFail s

/-- A stall: a home failure during homing, otherwise JAM (R87). -/
def stallMotion (s : State) : State :=
  if s.seq.mech = .homing then homeFail s else motionFault .jam s

/-- The motion a supervision tick marks (R86). -/
def motionInProgress (q : Sequencer) : Bool :=
  match q.mech with
  | .homing => q.homing.isSome
  | .ready => q.parking
  | .suspended => q.paperFeed.isSome
  | .busy => q.inFlight && q.phase != .rest && q.phase != .paused
  | .off | .interlocked | .wheelWait | .fault | .standby => false

/-- Progress clears the mark (R86). -/
def clearMark (s : State) : State := { s with seq := { s.seq with mark := false } }

/-- A tick's part for the motion: it marks, or finds the mark set and declares a stall (R86). -/
def tickMotion (s : State) : State :=
  if motionInProgress s.seq then
    if s.seq.mark then stallMotion s else { s with seq := { s.seq with mark := true } }
  else s

/-- The stall of a marked motion. -/
def stallMarked (s : State) : State :=
  if motionInProgress s.seq && s.seq.mark && s.mon.power == .running then
    eventEnd s.store.unprinted (stallMotion s)
  else s

/-- STALL (R87): the part of a tick that finds the motion mark still set (log 7). -/
def execStall (s : State) : Host.Outcome State Fault Refusal := .next (stallMarked s)

/-! ### Homing (R82 to R84) -/

/-- Homing ends when both parts have ended: HOMED, the mark of the motion that ended is cleared (R86), and the hub ID is
compared (R84, R144). -/
def homingDone (s : State) : State :=
  match s.seq.homing with
  | some { carriage := .ended, wheel := .ended hub } => compareWheel hub (setLatch .homed (clearMark s))
  | _ => s

/-- Replace the homing record. -/
def withHoming (h : Homing) (s : State) : State := { s with seq := { s.seq with homing := some h } }

/-- A carriage edge of a homing: travel is counted, and the limits of R82 fail it (log 10). -/
def homingCarriageEdge (h : Homing) (s : State) : State :=
  match h.carriage with
  | .ended => s
  | .rightward n =>
    if Config.homeRightLimit ≤ n + 1 then homeFail s
    else clearMark (withHoming { h with carriage := .rightward (n + 1) } s)
  | .leftward n =>
    if Config.homeLeftLimit ≤ n + 1 then homeFail s
    else clearMark (withHoming { h with carriage := .leftward (n + 1) } s)

/-- A wheel edge of a homing: steps are counted, and the search fails at 800 (R83). -/
def homingWheelEdge (h : Homing) (s : State) : State :=
  match h.wheel with
  | .ended _ => s
  | .seeking n =>
    if Config.indexLimit ≤ n + 1 then homeFail s
    else clearMark (withHoming { h with wheel := .seeking (n + 1) } s)
  | .reading n =>
    if n < Config.revolution then clearMark (withHoming { h with wheel := .reading (n + 1) } s) else s

/-- The wheel's part of homing ends with the hub ID read, petal 0 under the hammer (R83). -/
def homingWheelEnd (id : Nat) (s : State) : State :=
  match s.seq.homing with
  | none => s
  | some h =>
    match h.wheel with
    | .ended _ => s
    | .seeking _ | .reading _ =>
      let s := { s with seq := { s.seq with petal := some 0, mark := false } }
      eventEnd s.store.unprinted (homingDone (withHoming { h with wheel := .ended id } s))

/-- WHEEL_HOMING_END (R83). -/
def execWheelHomingEnd (id : BitVec 5) (s : State) : Host.Outcome State Fault Refusal :=
  .next (homingWheelEnd id.toNat s)

/-! ### Moves to an impression, parking, crossing -/

/-- The head job is a LIFT. -/
def headIsLift (q : Sequencer) : Bool :=
  match q.jobs with
  | { kind := .lift _ _ _ _, .. } :: _ => true
  | _ => false

/-- Carriage, wheel and, for a STRIKE, the ribbon lifter have settled (R71, R76). -/
def impressionSettled (q : Sequencer) : Bool :=
  q.carriage == q.carTarget && q.wheelMove.isNone && (headIsLift q || q.ribbonLifter == .up)

/-- The CROSS in flight has made its steps and its carriage stands at the target (R79). -/
def crossSettled (q : Sequencer) : Bool :=
  q.carriage == q.carTarget &&
    match q.jobs with
    | { kind := .cross back _ done _, .. } :: _ => decide (back ≤ done)
    | _ => false

/-- A motion that has ended leaves the job in flight at rest, a park move done (R71, R79, R80). -/
def settleMotion (s : State) : State :=
  match s.seq.phase with
  | .moving => if impressionSettled s.seq then { s with seq := { s.seq with phase := .rest } } else s
  | .crossing => if crossSettled s.seq then { s with seq := { s.seq with phase := .rest } } else s
  | .rest | .tapeRising | .pulse | .retract | .paused | .feeding =>
    if s.seq.parking && s.seq.carriage == s.seq.carTarget then { s with seq := { s.seq with parking := false, mark := false } }
    else s

/-- The carriage motor moves: to an impression, across lines, or parking. -/
def carriageMoves (q : Sequencer) : Bool := q.phase == .moving || q.phase == .crossing || q.parking

/-- One unit towards a target. -/
def stepToward (p t : Nat) : Nat := if p < t then p + 1 else p - 1

/-- A carriage edge counted by a CROSS (R79). -/
def countCrossEdge : JobKind → JobKind
  | .cross back target done edges => .cross back target done (edges + 1)
  | .strike t => .strike t
  | .lift p l b n => .lift p l b n
  | .feed d n k m => .feed d n k m

/-- A carriage encoder edge outside homing. -/
def carriageEdge (s : State) : State :=
  match s.seq.carriage, s.seq.carTarget with
  | some p, some t =>
    if carriageMoves s.seq && p != t then
      let s := clearMark { s with seq := { s.seq with carriage := some (stepToward p t) } }
      settleMotion (if s.seq.phase = .crossing then mapHead countCrossEdge s else s)
    else s
  | _, _ => s

/-- A wheel encoder edge outside homing; at the last step the petal under the hammer is the target (R73). -/
def wheelEdge (s : State) : State :=
  match s.seq.wheelMove with
  | none => s
  | some m =>
    if m.stepsLeft ≤ 1 then
      settleMotion (clearMark { s with seq := { s.seq with petal := some m.target, wheelMove := none } })
    else clearMark { s with seq := { s.seq with wheelMove := some { m with stepsLeft := m.stepsLeft - 1 } } }

/-- An encoder edge (R82, R83, R73, R71, R79, R80). -/
def encoderEdge (a : Axis) (s : State) : State :=
  match a, s.seq.homing with
  | .carriage, some h => homingCarriageEdge h s
  | .wheel, some h => homingWheelEdge h s
  | .carriage, none => carriageEdge s
  | .wheel, none => wheelEdge s

/-- ENCODER_EDGE (R82). -/
def execEncoderEdge (a : Axis) (s : State) : Host.Outcome State Fault Refusal :=
  .next (eventEnd s.store.unprinted (encoderEdge a s))

/-- The motions still outstanding for an impression or a crossing end (R71, R79; log 6). -/
def motionSettled (s : State) : State :=
  let q := s.seq
  match q.phase with
  | .moving =>
    settleMotion
      (clearMark
        { s with
          seq := { q with
            carriage := q.carTarget
            petal := match q.wheelMove with
              | some m => some m.target
              | none => q.petal
            wheelMove := none
            ribbonLifter := if headIsLift q then q.ribbonLifter else .up } })
  | .crossing => settleMotion (clearMark { s with seq := { q with carriage := q.carTarget } })
  | .rest | .tapeRising | .pulse | .retract | .paused | .feeding => s

/-- MOTION_SETTLED (R71). -/
def execMotionSettled (s : State) : Host.Outcome State Fault Refusal :=
  .next (eventEnd s.store.unprinted (motionSettled s))

/-- The carriage reaches the park point (R80). -/
def parkMoveDone (s : State) : State :=
  if s.seq.parking then
    { s with seq := { s.seq with carriage := s.seq.carTarget, parking := false, mark := false } }
  else s

/-- PARK_MOVE_DONE (R80). -/
def execParkMoveDone (s : State) : Host.Outcome State Fault Refusal :=
  .next (eventEnd s.store.unprinted (parkMoveDone s))

/-! ### Hammer and lifters -/

/-- The pulse ends: the hammer is released, and a LIFT's tape lifter is lowered (R71, R76). -/
def pulseEnd (s : State) : State :=
  if s.seq.phase = .pulse then
    { s with
      seq :=
        { s.seq with
          phase := .retract, hammer := .returning
          tapeLifter := if headIsLift s.seq then s.seq.tapeLifter.lower else s.seq.tapeLifter } }
  else s

/-- HAMMER_PULSE_END (R74). -/
def execHammerPulseEnd (s : State) : Host.Outcome State Fault Refusal :=
  .next (eventEnd s.store.unprinted (pulseEnd s))

/-- The impression is complete: the hammer is home and, for a LIFT, the tape lifter is down again (R71, R76). -/
def retractDone (s : State) : State :=
  if s.seq.phase = .retract ∧ s.seq.hammer = .rest ∧ (headIsLift s.seq = false ∨ s.seq.tapeLifter = .down) then
    { s with seq := { s.seq with phase := .rest } }
  else s

/-- The hammer-home sensor shows home after a pulse (R71). -/
def hammerHome (s : State) : State :=
  if s.seq.phase = .retract ∧ s.seq.hammer = .returning then
    retractDone { s with seq := { s.seq with hammer := .rest, mark := false } }
  else s

/-- HAMMER_HOME (R71). -/
def execHammerHome (s : State) : Host.Outcome State Fault Refusal :=
  .next (eventEnd s.store.unprinted (hammerHome s))

/-- Where a moving lifter stands when its move ends; absent when it is not moving. -/
def LifterPos.arrive : LifterPos → Option LifterPos
  | .rising => some .up
  | .lowering => some .down
  | .up | .down => none

/-- The tape lifter has risen for the impression of a LIFT (R76). -/
def tapeRisen (s : State) : State :=
  if s.seq.phase = .tapeRising ∧ s.seq.tapeLifter = .up then { s with seq := { s.seq with phase := .rest } } else s

/-- A lifter reaches its position (R76, R86). -/
def lifterDone (which : Lifter) (s : State) : State :=
  match which with
  | .ribbon =>
    match s.seq.ribbonLifter.arrive with
    | none => s
    | some p => settleMotion { s with seq := { s.seq with ribbonLifter := p, mark := false } }
  | .tape =>
    match s.seq.tapeLifter.arrive with
    | none => s
    | some p => retractDone (tapeRisen { s with seq := { s.seq with tapeLifter := p, mark := false } })

/-- LIFTER_DONE (R76). -/
def execLifterDone (which : Lifter) (s : State) : Host.Outcome State Fault Refusal :=
  .next (eventEnd s.store.unprinted (lifterDone which s))

/-! ### Platen -/

/-- The paper-out feed ends: PAPER and its latch with the sensor absent, else the platen count becomes 0 (R89). -/
def paperFeedEnd (s : State) : State :=
  let s := { s with seq := { s.seq with paperFeed := none } }
  if s.mon.levels.paper then { s with seq := { s.seq with platen := 0 } }
  else setLatch .paperOut { s with seq := { s.seq with suspend := { s.seq.suspend with paper := true } } }

/-- A platen step of a FEED or CROSS at the head: its count and its direction; absent for another job (R78, R79). -/
def platenJob : JobKind → Option (JobKind × Bool × Bool)
  | .feed forward steps link done =>
    if done < steps then some (.feed forward steps link (done + 1), forward, decide (steps ≤ done + 1)) else none
  | .cross back target done edges =>
    if done < back then some (.cross back target (done + 1) edges, false, false) else none
  | .strike _ | .lift _ _ _ _ => none

/-- The platen count after a step, modulo 65536 (R78). -/
def platenAfter (forward : Bool) (p : BitVec 16) : BitVec 16 := if forward then p + 1 else p - 1

/-- A platen step (R78, R79, R89). -/
def platenStep (s : State) : State :=
  match s.seq.paperFeed with
  | some n =>
    let s := { s with seq := { s.seq with paperFeed := some (n + 1), platen := s.seq.platen + 1, mark := false } }
    if Config.paperFeedSteps ≤ n + 1 then paperFeedEnd s else s
  | none =>
    if s.seq.phase = .feeding ∨ s.seq.phase = .crossing then
      match s.seq.jobs with
      | [] => s
      | j :: js =>
        match platenJob j.kind with
        | none => s
        | some (k, forward, ends) =>
          settleMotion
            { s with
              seq :=
                { s.seq with
                  jobs := { j with kind := k } :: js
                  platen := platenAfter forward s.seq.platen
                  mark := false
                  phase := if ends then .rest else s.seq.phase } }
    else s

/-- PLATEN_STEP (R78). -/
def execPlatenStep (s : State) : Host.Outcome State Fault Refusal :=
  .next (eventEnd s.store.unprinted (platenStep s))

end Sys2Proof.Machine
end

