-- ==== Sys2Proof/Machine/PanelEvents.lean ====
section
/-! DEFINITION. The meanings of the link, sensor, timer, display and power rows. -/

namespace Sys2Proof.Machine

/-! ### The link -/

/-- RECEIVE_BYTE (R184). -/
def execReceiveByte (b : Byte) (s : State) : Host.Outcome State Fault Refusal := .next (noticeCheck (receive b s))

/-- BROKEN_BYTE (R184). -/
def execBrokenByte (s : State) : Host.Outcome State Fault Refusal := .next (noticeCheck (receiveBroken s))

/-- A frame is being assembled. -/
def Receiver.assembles : Receiver → Bool
  | .hunting => false
  | .assembling _ _ _ => true

/-- A tick's part for the frame being assembled (R185). -/
def tickFrame (s : State) : State :=
  if s.link.receiver.assembles then
    if s.link.rxMark then frameError s else { s with link := { s.link with rxMark := true } }
  else s

/-- The time-out of a marked frame. -/
def frameTimeout (s : State) : State :=
  if s.link.receiver.assembles && s.link.rxMark && s.mon.power == .running then noticeCheck (frameError s) else s

/-- PARTIAL_FRAME_TIMEOUT (R185): the part of a tick that finds the frame's mark still set (log 7). -/
def execPartialFrameTimeout (s : State) : Host.Outcome State Fault Refusal := .next (frameTimeout s)

/-- TAKE_REQUEST (R187). -/
def execTakeRequest (s : State) : Host.Outcome State Fault Refusal := .next (takeOldest s)

/-- The bytes of a frame of the part on TXD: the same form as the host's (R183). -/
def OutFrame.lineBytes (f : OutFrame) : List Byte := frameLine f.kind f.tag f.payload

/-- The bytes the transmitter is sending: those of the oldest frame of the output queue (R189), in standby only while frames
queued at its entry are left (R180). FRAME_SENT is their end. -/
def txBytes (s : State) : Option (List Byte) :=
  match s.mon.power with
  | .running => s.link.output.head?.map OutFrame.lineBytes
  | .standby => if s.link.standbyTx = 0 then none else s.link.output.head?.map OutFrame.lineBytes

/-- The bytes of `txBytes` have been sent: the oldest frame of the output queue leaves it; in standby only those queued at its
entry are sent (R189, R180). -/
def frameSent (s : State) : State :=
  match s.mon.power with
  | .running => { s with link := { s.link with output := s.link.output.drop 1 } }
  | .standby =>
    if s.link.standbyTx = 0 then s
    else { s with link := { s.link with output := s.link.output.drop 1, standbyTx := s.link.standbyTx - 1 } }

/-- FRAME_SENT (R189). -/
def execFrameSent (s : State) : Host.Outcome State Fault Refusal := .next (frameSent s)

/-! ### The supervision tick -/

/-- A tick's part for the memory transaction; a byte moved since the last tick has cleared its mark (R151b, log 2). -/
def tickMemory (busMoved : Bool) (s : State) : State :=
  match s.mem.transaction with
  | none => s
  | some t =>
    if t.mark && !busMoved then abandonTransaction s
    else { s with mem := { s.mem with transaction := some { t with mark := true } } }

/-- A supervision tick: motion, frame and memory transaction; it does not run in standby (R86, R185, R151b). -/
def supervisionTick (busMoved : Bool) (s : State) : State :=
  match s.mon.power with
  | .standby => s
  | .running => eventEnd s.store.unprinted (tickMemory busMoved (tickFrame (tickMotion s)))

/-- SUPERVISION_TICK (R86). -/
def execSupervisionTick (busMoved : Bool) (s : State) : Host.Outcome State Fault Refusal :=
  .next (supervisionTick busMoved s)

/-! ### Sensors (R170, R171) -/

/-- The cover opens (R91): motion stops, INTERLOCKED; noted in FAULT and STANDBY. -/
def coverOpens (s : State) : State :=
  match s.seq.mech with
  | .homing | .ready | .busy | .suspended | .wheelWait =>
    let s := stopMotion s
    { s with
      seq := { s.seq with mech := .interlocked, carriage := none, petal := none }
      mem := { s.mem with wait := none } }
  | .off => { s with seq := { s.seq with mech := .interlocked } }
  | .interlocked | .fault | .standby => s

/-- Paper shows absent (R89): the feed at once without a job in flight or with it paused, else owed. -/
def paperLeaves (s : State) : State :=
  match s.seq.mech with
  | .ready | .busy | .suspended =>
    if (!s.seq.inFlight || s.seq.phase == .paused) && s.seq.paperFeed.isNone && !s.seq.suspend.paper then
      startPaperFeed s
    else s
  | .off | .homing | .interlocked | .wheelWait | .fault | .standby => s

/-- Paper shows present (R89): PAPER leaves the set and the platen count becomes 0. -/
def paperArrives (s : State) : State :=
  if s.seq.suspend.paper then
    { s with seq := { s.seq with suspend := { s.seq.suspend with paper := false }, platen := 0 } }
  else s

/-- The carriage-home sensor in a homing (R82). -/
def homeSensor (level : Bool) (s : State) : State :=
  match s.seq.homing with
  | none => s
  | some h =>
    match h.carriage, level with
    | .leftward _, true =>
      homingDone (withHoming { h with carriage := .ended } { s with seq := { s.seq with carriage := some 0 } })
    | .rightward _, false => withHoming { h with carriage := .leftward 0 } s
    | .leftward _, false | .rightward _, true | .ended, _ => s

/-- The wheel-index sensor in a homing (R83). -/
def indexSensor (level : Bool) (s : State) : State :=
  match s.seq.homing with
  | none => s
  | some h =>
    match h.wheel, level with
    | .seeking _, true => withHoming { h with wheel := .reading 0 } { s with seq := { s.seq with petal := some 0 } }
    | .seeking _, false | .reading _, _ | .ended _, _ => s

/-- The Print Sequencer acts on a new level (R170); ribbon and tape are judged as the sequencer goes on (R90, R75). -/
def sensorActs (n : Sensor) (level : Bool) (s : State) : State :=
  match n with
  | .cover => if level then (if s.seq.mech = .interlocked then beginHoming true s else s) else coverOpens s
  | .paper => if level then paperArrives s else paperLeaves s
  | .ribbonEnd | .tapeEnd => s
  | .carriageHome => homeSensor level s
  | .wheelIndex => indexSensor level s

/-- The Monitor's latch for a selected edge (R171). -/
def latchEdge (n : Sensor) (level : Bool) (s : State) : State :=
  let c := s.mon.config.get n
  setLatchIf (c.edge.selects level && c.change) (changeLatch n) s

/-- A filtered level changes (R170, R171): the latch first; in standby a selected edge with wake enable wakes the part and
any other is noted; otherwise the sequencer acts. -/
def sensorChange (n : Sensor) (level : Bool) (s : State) : State :=
  if sensorLevel s.mon.levels n = level then s
  else
    let before := s.store.unprinted
    let c := s.mon.config.get n
    let s := latchEdge n level { s with mon := { s.mon with levels := withSensorLevel s.mon.levels level n } }
    match s.mon.power with
    | .standby => if c.edge.selects level && c.wake then eventEnd before (wake s) else noticeCheck s
    | .running => eventEnd before (sensorActs n level s)

/-- SENSOR_LEVEL_CHANGE (R170). -/
def execSensorLevelChange (n : Sensor) (level : Bool) (s : State) : Host.Outcome State Fault Refusal :=
  .next (sensorChange n level s)

/-! ### Timers and power -/

/-- An expiry of the 1 s timer lowers a running countdown; at 0 standby begins (R179, R180; log 7). -/
def idleExpiry (s : State) : State :=
  match s.mon.idle with
  | none => s
  | some n => if n ≤ 1 then enterStandby s else { s with mon := { s.mon with idle := some (n - 1) } }

/-- IDLE_TIMER_EXPIRY (R179). -/
def execIdleTimerExpiry (s : State) : Host.Outcome State Fault Refusal := .next (idleExpiry s)

/-- The countdown reaches 0 (R180; log 7). -/
def standbyAtZero (s : State) : State :=
  match s.mon.idle with
  | none => s
  | some n => if n ≤ 1 then enterStandby s else s

/-- STANDBY_ENTRY (R180). -/
def execStandbyEntry (s : State) : Host.Outcome State Fault Refusal := .next (standbyAtZero s)

/-- The blink phase changes while the display is ON (R162). -/
def blinkExpiry (s : State) : State :=
  match s.disp.state with
  | .on => refreshDisplay { s with disp := { s.disp with blinkOn := !s.disp.blinkOn } }
  | .starting | .off => s

/-- BLINK_TIMER_EXPIRY (R162). -/
def execBlinkTimerExpiry (s : State) : Host.Outcome State Fault Refusal := .next (blinkExpiry s)

/-- A send begins when it may (R164, R167). -/
def sendBegin (s : State) : State :=
  if sendBegins s.disp then { s with disp := beginSend (s.disp.state != .off) s.disp } else s

/-- DISPLAY_SEND_BEGIN (R164). -/
def execDisplaySendBegin (s : State) : Host.Outcome State Fault Refusal := .next (sendBegin s)

/-- DISPLAY_SEND_END (R164). -/
def execDisplaySendEnd (s : State) : Host.Outcome State Fault Refusal :=
  .next { s with disp := { s.disp with sending := none } }

/-- GAP_TIMER_EXPIRY (R164). -/
def execGapTimerExpiry (s : State) : Host.Outcome State Fault Refusal :=
  .next { s with disp := { s.disp with gap := true } }

/-- The overlay timer expires (R166). -/
def overlayExpiry (s : State) : State :=
  if s.disp.overlayTimer.isSome then refreshDisplay { s with disp := endOverlay s.disp } else s

/-- OVERLAY_TIMEOUT (R166). -/
def execOverlayTimeout (s : State) : Host.Outcome State Fault Refusal := .next (overlayExpiry s)

/-- The next phase of a sounding pattern; absent when it ends (R176). -/
def Beeper.next (b : Beeper) : Option Beeper :=
  if b.tone then
    if b.tonesLeft = 0 then none else some { b with tone := false, timer := b.pattern.shape.2.1 }
  else some { b with tone := true, tonesLeft := b.tonesLeft - 1, timer := b.pattern.shape.1 }

/-- BEEPER_TIMER_EXPIRY (R176). -/
def execBeeperTimerExpiry (s : State) : Host.Outcome State Fault Refusal :=
  .next { s with mon := { s.mon with beeper := s.mon.beeper.bind Beeper.next } }

/-- Power-on reset (R194, R182, R96, R156): every block takes its power-on values, BSEL and the sensor lines are read,
homing and the first transaction begin. The command queue is the model's and stays. -/
def powerOn (bselHigh : Bool) (levels : SensorLevels) (s : State) : State :=
  let r := State.reset
  eventEnd 0
    { r with
      pending := s.pending
      mon := { r.mon with levels := levels }
      link := { r.link with highBaud := bselHigh } }

/-- POWER_ON_RESET (R194). -/
def execPowerOnReset (bselHigh : Bool) (levels : SensorLevels) (s : State) : Host.Outcome State Fault Refusal :=
  .next (powerOn bselHigh levels s)

end Sys2Proof.Machine
end

