-- ==== Sys2Proof/Machine/Requests.lean ====
section
/-! DEFINITION. The meanings of the request rows: each arrives as a whole frame by `hostRequest` (log 1) and has
the effect of its owning rule. -/

namespace Sys2Proof.Machine

/-- IDENTIFY (R192). -/
def execIdentify (tag : Byte) (s : State) : Host.Outcome State Fault Refusal :=
  .next (hostRequest tag .identify s)

/-- STATUS (R175). -/
def execStatus (tag : Byte) (s : State) : Host.Outcome State Fault Refusal :=
  .next (hostRequest tag .status s)

/-- KEYS (R10). -/
def execKeys (tag : Byte) (recs : List KeyRec) (s : State) : Host.Outcome State Fault Refusal :=
  .next (hostRequest tag (.keys recs) s)

/-- CORRECT (R100). -/
def execCorrect (tag : Byte) (s : State) : Host.Outcome State Fault Refusal :=
  .next (hostRequest tag .correct s)

/-- WORD-ERASE (R110). -/
def execWordErase (tag : Byte) (s : State) : Host.Outcome State Fault Refusal :=
  .next (hostRequest tag .wordErase s)

/-- LINE-ERASE (R111). -/
def execLineErase (tag : Byte) (s : State) : Host.Outcome State Fault Refusal :=
  .next (hostRequest tag .lineErase s)

/-- INDEX (R93). -/
def execIndex (tag : Byte) (direction count : Byte) (s : State) : Host.Outcome State Fault Refusal :=
  .next (hostRequest tag (.index direction count) s)

/-- SET-MARGINS (R26). -/
def execSetMargins (tag : Byte) (left right : Half) (s : State) : Host.Outcome State Fault Refusal :=
  .next (hostRequest tag (.setMargins left right) s)

/-- SET-LAYOUT (R27). -/
def execSetLayout (tag : Byte) (fields : LayoutFields) (s : State) : Host.Outcome State Fault Refusal :=
  .next (hostRequest tag (.setLayout fields) s)

/-- SET-TAB (R25). -/
def execSetTab (tag : Byte) (position : Half) (kind : Byte) (s : State) : Host.Outcome State Fault Refusal :=
  .next (hostRequest tag (.setTab position kind) s)

/-- CLEAR-TAB (R25). -/
def execClearTab (tag : Byte) (position : Half) (s : State) : Host.Outcome State Fault Refusal :=
  .next (hostRequest tag (.clearTab position) s)

/-- CLEAR-ALL-TABS (R25). -/
def execClearAllTabs (tag : Byte) (s : State) : Host.Outcome State Fault Refusal :=
  .next (hostRequest tag .clearAllTabs s)

/-- SPELL-ACCEPT (R133). -/
def execSpellAccept (tag : Byte) (s : State) : Host.Outcome State Fault Refusal :=
  .next (hostRequest tag .spellAccept s)

/-- SPELL-ADD (R134). -/
def execSpellAdd (tag : Byte) (s : State) : Host.Outcome State Fault Refusal :=
  .next (hostRequest tag .spellAdd s)

/-- USER-WORD-READ (R135). -/
def execUserWordRead (tag : Byte) (n : Byte) (s : State) : Host.Outcome State Fault Refusal :=
  .next (hostRequest tag (.userWordRead n) s)

/-- USER-WORD-DELETE (R135). -/
def execUserWordDelete (tag : Byte) (codes : List Byte) (s : State) : Host.Outcome State Fault Refusal :=
  .next (hostRequest tag (.userWordDelete codes) s)

/-- DRAIN (R60). -/
def execDrain (tag : Byte) (s : State) : Host.Outcome State Fault Refusal :=
  .next (hostRequest tag .drain s)

/-- WHEEL-ASSIGN (R148). -/
def execWheelAssign (tag : Byte) (id : Byte) (s : State) : Host.Outcome State Fault Refusal :=
  .next (hostRequest tag (.wheelAssign id) s)

/-- DISCARD (R149). -/
def execDiscard (tag : Byte) (s : State) : Host.Outcome State Fault Refusal :=
  .next (hostRequest tag .discard s)

/-- RECOVER (R88). -/
def execRecover (tag : Byte) (s : State) : Host.Outcome State Fault Refusal :=
  .next (hostRequest tag .recover s)

/-- DISPLAY-OVERLAY (R165). -/
def execDisplayOverlay (tag : Byte) (timeout first : Byte) (codes : List Byte) (s : State) : Host.Outcome State Fault Refusal :=
  .next (hostRequest tag (.displayOverlay timeout first codes) s)

/-- DISPLAY-RELEASE (R166). -/
def execDisplayRelease (tag : Byte) (s : State) : Host.Outcome State Fault Refusal :=
  .next (hostRequest tag .displayRelease s)

/-- EVENTS-READ (R174). -/
def execEventsRead (tag : Byte) (group : Byte) (s : State) : Host.Outcome State Fault Refusal :=
  .next (hostRequest tag (.eventsRead group) s)

/-- EVENTS-CLEAR (R174). -/
def execEventsClear (tag : Byte) (group : Byte) (latches : Half) (s : State) : Host.Outcome State Fault Refusal :=
  .next (hostRequest tag (.eventsClear group latches) s)

/-- EVENT-MASK (R174). -/
def execEventMask (tag : Byte) (group : Byte) (masked : Half) (s : State) : Host.Outcome State Fault Refusal :=
  .next (hostRequest tag (.eventMask group masked) s)

/-- SENSOR-CONFIG (R170). -/
def execSensorConfig (tag : Byte) (sensor edge change wakeup : Byte) (s : State) : Host.Outcome State Fault Refusal :=
  .next (hostRequest tag (.sensorConfig sensor edge change wakeup) s)

/-- LAMP (R178). -/
def execLamp (tag : Byte) (line : Byte) (assignment level : Option Byte) (s : State) : Host.Outcome State Fault Refusal :=
  .next (hostRequest tag (.lamp line assignment level) s)

/-- BEEP (R176). -/
def execBeep (tag : Byte) (pattern : Byte) (s : State) : Host.Outcome State Fault Refusal :=
  .next (hostRequest tag (.beep pattern) s)

/-- SAVE-SETTINGS (R155). -/
def execSaveSettings (tag : Byte) (s : State) : Host.Outcome State Fault Refusal :=
  .next (hostRequest tag .saveSettings s)

/-- RESET (R193). -/
def execReset (tag : Byte) (s : State) : Host.Outcome State Fault Refusal :=
  .next (hostRequest tag .reset s)

end Sys2Proof.Machine
end

