-- ==== Sys2Proof/Machine/Dispatch.lean ====
section
/-! DEFINITION. The dispatch: one arm per row of the opcode table. -/

namespace Sys2Proof.Machine

def exec (i : Instr) (s : State) : Host.Outcome State Fault Refusal :=
  match i with
  | .identify tag => Sys2Proof.Machine.execIdentify tag s
  | .status tag => Sys2Proof.Machine.execStatus tag s
  | .keys tag recs => Sys2Proof.Machine.execKeys tag recs s
  | .correct tag => Sys2Proof.Machine.execCorrect tag s
  | .wordErase tag => Sys2Proof.Machine.execWordErase tag s
  | .lineErase tag => Sys2Proof.Machine.execLineErase tag s
  | .index tag direction count => Sys2Proof.Machine.execIndex tag direction count s
  | .setMargins tag left right => Sys2Proof.Machine.execSetMargins tag left right s
  | .setLayout tag fields => Sys2Proof.Machine.execSetLayout tag fields s
  | .setTab tag position kind => Sys2Proof.Machine.execSetTab tag position kind s
  | .clearTab tag position => Sys2Proof.Machine.execClearTab tag position s
  | .clearAllTabs tag => Sys2Proof.Machine.execClearAllTabs tag s
  | .spellAccept tag => Sys2Proof.Machine.execSpellAccept tag s
  | .spellAdd tag => Sys2Proof.Machine.execSpellAdd tag s
  | .userWordRead tag n => Sys2Proof.Machine.execUserWordRead tag n s
  | .userWordDelete tag codes => Sys2Proof.Machine.execUserWordDelete tag codes s
  | .drain tag => Sys2Proof.Machine.execDrain tag s
  | .wheelAssign tag id => Sys2Proof.Machine.execWheelAssign tag id s
  | .discard tag => Sys2Proof.Machine.execDiscard tag s
  | .recover tag => Sys2Proof.Machine.execRecover tag s
  | .displayOverlay tag timeout first codes => Sys2Proof.Machine.execDisplayOverlay tag timeout first codes s
  | .displayRelease tag => Sys2Proof.Machine.execDisplayRelease tag s
  | .eventsRead tag group => Sys2Proof.Machine.execEventsRead tag group s
  | .eventsClear tag group latches => Sys2Proof.Machine.execEventsClear tag group latches s
  | .eventMask tag group masked => Sys2Proof.Machine.execEventMask tag group masked s
  | .sensorConfig tag sensor edge change wakeup => Sys2Proof.Machine.execSensorConfig tag sensor edge change wakeup s
  | .lamp tag line assignment level => Sys2Proof.Machine.execLamp tag line assignment level s
  | .beep tag pattern => Sys2Proof.Machine.execBeep tag pattern s
  | .saveSettings tag => Sys2Proof.Machine.execSaveSettings tag s
  | .reset tag => Sys2Proof.Machine.execReset tag s
  | .powerOnReset bselHigh levels => Sys2Proof.Machine.execPowerOnReset bselHigh levels s
  | .receiveByte b => Sys2Proof.Machine.execReceiveByte b s
  | .brokenByte => Sys2Proof.Machine.execBrokenByte s
  | .partialFrameTimeout => Sys2Proof.Machine.execPartialFrameTimeout s
  | .takeRequest => Sys2Proof.Machine.execTakeRequest s
  | .frameSent => Sys2Proof.Machine.execFrameSent s
  | .headerReadEnd bytes => Sys2Proof.Machine.execHeaderReadEnd bytes s
  | .tableLoadEnd bytes => Sys2Proof.Machine.execTableLoadEnd bytes s
  | .directoryReadEnd bytes => Sys2Proof.Machine.execDirectoryReadEnd bytes s
  | .bucketReadEnd bytes => Sys2Proof.Machine.execBucketReadEnd bytes s
  | .nvRecordReadEnd bytes => Sys2Proof.Machine.execNvRecordReadEnd bytes s
  | .pageWriteEnd => Sys2Proof.Machine.execPageWriteEnd s
  | .pageReadbackEnd bytes => Sys2Proof.Machine.execPageReadbackEnd bytes s
  | .supervisionTick busMoved => Sys2Proof.Machine.execSupervisionTick busMoved s
  | .stall => Sys2Proof.Machine.execStall s
  | .encoderEdge axis => Sys2Proof.Machine.execEncoderEdge axis s
  | .motionSettled => Sys2Proof.Machine.execMotionSettled s
  | .hammerPulseEnd => Sys2Proof.Machine.execHammerPulseEnd s
  | .hammerHome => Sys2Proof.Machine.execHammerHome s
  | .lifterDone which => Sys2Proof.Machine.execLifterDone which s
  | .platenStep => Sys2Proof.Machine.execPlatenStep s
  | .parkMoveDone => Sys2Proof.Machine.execParkMoveDone s
  | .wheelHomingEnd id => Sys2Proof.Machine.execWheelHomingEnd id s
  | .sensorLevelChange sensor level => Sys2Proof.Machine.execSensorLevelChange sensor level s
  | .idleTimerExpiry => Sys2Proof.Machine.execIdleTimerExpiry s
  | .standbyEntry => Sys2Proof.Machine.execStandbyEntry s
  | .blinkTimerExpiry => Sys2Proof.Machine.execBlinkTimerExpiry s
  | .displaySendBegin => Sys2Proof.Machine.execDisplaySendBegin s
  | .displaySendEnd => Sys2Proof.Machine.execDisplaySendEnd s
  | .gapTimerExpiry => Sys2Proof.Machine.execGapTimerExpiry s
  | .overlayTimeout => Sys2Proof.Machine.execOverlayTimeout s
  | .beeperTimerExpiry => Sys2Proof.Machine.execBeeperTimerExpiry s

end Sys2Proof.Machine
end

