-- ==== Sys2Proof/Safety.lean ====
section
/-! DEFINITION. The terms claims use: what the end of an event leaves alone, the bounds of queues and buffers,
and when a request row is taken at once. -/

namespace Sys2Proof.Machine

/-! ### When a request row is taken at once -/

/-- The part is running, no frame waits, and R187 lets the link take a frame. -/
def Taken (s : State) : Prop := s.mon.power = .running ∧ s.link.input = [] ∧ canTake s = true

/-- The state in which the owning block acts on a request row that is taken at once: the idle countdown restarted by
its start byte (R179), the frame in hand (R187). -/
def atBlock (tag : Byte) (r : Request) (s : State) : State := takeInHand (requestFrame tag false r) (restartIdle s)

/-- The state after a request row that only answers: the idle countdown restarted, the answer queued. -/
def answered (f : OutFrame) (s : State) : State :=
  { restartIdle s with link := { s.link with output := s.link.output ++ [f] } }

/-- The request of a request row, with its tag. -/
def asRequest : Instr → Option (Byte × Request)
  | .identify t => some (t, .identify)
  | .status t => some (t, .status)
  | .keys t rs => some (t, .keys rs)
  | .correct t => some (t, .correct)
  | .wordErase t => some (t, .wordErase)
  | .lineErase t => some (t, .lineErase)
  | .index t d c => some (t, .index d c)
  | .setMargins t l r => some (t, .setMargins l r)
  | .setLayout t f => some (t, .setLayout f)
  | .setTab t p k => some (t, .setTab p k)
  | .clearTab t p => some (t, .clearTab p)
  | .clearAllTabs t => some (t, .clearAllTabs)
  | .spellAccept t => some (t, .spellAccept)
  | .spellAdd t => some (t, .spellAdd)
  | .userWordRead t n => some (t, .userWordRead n)
  | .userWordDelete t cs => some (t, .userWordDelete cs)
  | .drain t => some (t, .drain)
  | .wheelAssign t n => some (t, .wheelAssign n)
  | .discard t => some (t, .discard)
  | .recover t => some (t, .recover)
  | .displayOverlay t o f cs => some (t, .displayOverlay o f cs)
  | .displayRelease t => some (t, .displayRelease)
  | .eventsRead t g => some (t, .eventsRead g)
  | .eventsClear t g h => some (t, .eventsClear g h)
  | .eventMask t g h => some (t, .eventMask g h)
  | .sensorConfig t n e c w => some (t, .sensorConfig n e c w)
  | .lamp t n a l => some (t, .lamp n a l)
  | .beep t p => some (t, .beep p)
  | .saveSettings t => some (t, .saveSettings)
  | .reset t => some (t, .reset)
  | .powerOnReset _ _ | .receiveByte _ | .brokenByte | .partialFrameTimeout | .takeRequest | .frameSent
  | .headerReadEnd _ | .tableLoadEnd _ | .directoryReadEnd _ | .bucketReadEnd _ | .nvRecordReadEnd _
  | .pageWriteEnd | .pageReadbackEnd _ | .supervisionTick _ | .stall | .encoderEdge _ | .motionSettled
  | .hammerPulseEnd | .hammerHome | .lifterDone _ | .platenStep | .parkMoveDone | .wheelHomingEnd _
  | .sensorLevelChange _ _ | .idleTimerExpiry | .standbyEntry | .blinkTimerExpiry | .displaySendBegin
  | .displaySendEnd | .gapTimerExpiry | .overlayTimeout | .beeperTimerExpiry => none

/-- RECEIVE_BYTE for each byte of a list, in order. -/
def takeBytes : List Byte → State → Host.Outcome State Fault Refusal
  | [], s => .next s
  | b :: bs, s =>
    match exec (.receiveByte b) s with
    | .next t => takeBytes bs t
    | .fault e => .fault e
    | .refused r => .refused r

/-- The payload lengths that Table 10-3 permits for a kind. -/
def lengthPermitted (kind length : Nat) : Bool :=
  match kind with
  | 0x03 => decide (length % 2 = 0)
  | 0x07 | 0x0B => decide (length = 2)
  | 0x08 | 0x1C | 0x1D => decide (length = 4)
  | 0x09 => decide (length = 9)
  | 0x0A | 0x1A | 0x1B => decide (length = 3)
  | 0x0D | 0x10 | 0x13 | 0x19 | 0x1E => decide (length = 1)
  | 0x11 => true
  | 0x17 => decide (2 ≤ length)
  | _ => decide (length = 0)

/-- Every field of SET-LAYOUT that is present lies in its range (R27). -/
def layoutInRange (f : LayoutFields) : Prop :=
  (∀ b ∈ f.alignment, b.toNat ≤ 3) ∧ (∀ b ∈ f.lineSpacing, b.toNat = 8 ∨ b.toNat = 12 ∨ b.toNat = 16)
    ∧ (∀ b ∈ f.impression, 1 ≤ b.toNat ∧ b.toNat ≤ 4) ∧ (∀ b ∈ f.releaseMode, b.toNat ≤ 1)
    ∧ (∀ b ∈ f.decimalChar, b.toNat = 46 ∨ b.toNat = 44) ∧ (∀ b ∈ f.beeperEnable, b.toNat ≤ 1)
    ∧ (∀ b ∈ f.bellWidth, b.toNat ≤ 120) ∧ (∀ b ∈ f.idleMinutes, b.toNat ≤ 60)

/-- The typing point that a GLYPH or SPACE key of width `w` would leave in a FLUSH_LEFT or JUSTIFY line (R9, R17): inside an open
decimal segment its provisional end, for the decimal character outside it again. -/
def keyLeaves (s : State) (decimal : Bool) (w : Nat) : Nat :=
  match s.store.openLine.segment, decimal with
  | some g, false =>
    max g.point (g.stop - (segmentWidth s.store.openLine g + w)) + segmentWidth s.store.openLine g + w
  | _, _ => s.store.openLine.typingPoint + w

/-! ### Layout in the terms of chapter 2 -/

/-- A cell but for its spelling mark and its WORD reason, which verdicts and word changes alone touch; and but for its word when it is
the pending apostrophe `a` that becomes a letter cell (R23). -/
def Cell.besides (a : Option Nat) (c : Cell) : Cell :=
  { c with mark := none, holds := { c.holds with word := false }, word := if a = some c.seq then none else c.word }

/-- Cell `i` is a SPACE between the first and the last GLYPH of the cells (R42). -/
def interiorSpace (cs : List Cell) (i : Nat) : Bool :=
  (cs[i]?.any fun c => c.kind == .space) && (cs.take i).any (fun c => c.kind == .glyph)
    && (cs.drop (i + 1)).any fun c => c.kind == .glyph

/-- How many of the first `i` cells are gaps (R43). -/
def gapsBefore (cs : List Cell) (i : Nat) : Nat := (List.range i).countP (interiorSpace cs)

/-- What the leftmost `k` of `g` gaps receive of `e` units together: floor(e / g) each, and the leftmost e mod g one more (R43). -/
def extraBefore (g e k : Nat) : Nat := k * (e / g) + min k (e % g)

/-- The widths of a segment's cells among some cells of its line (R45). -/
def widthIn (g : Segment) (cs : List Cell) : Nat := cellsWidth (cs.filter fun c => g.cells.contains c.seq)

/-- The start of a segment's cells: the stop less their width, but not less than the segment's point (R45, R46). -/
def startOf (g : Segment) (width : Nat) : Nat := max g.point (g.stop - width)

/-- The gap extra that a closed line's placement gives its cell `i` (R31, R43). -/
def gapExtra (l : Line) (i : Nat) : Nat :=
  if interiorSpace l.cells i then (l.placement.getD []).getD (gapsBefore l.cells i) 0 else 0

/-- The job that a release appends for a cell, given the cell before and after the pass and its line's spacing (R56, Table 3-2). -/
def jobOfRelease (spacing : Nat) (before after : Cell) : Option Job :=
  if before.state = .held ∧ after.state = .queued then
    some
      { kind := if before.isReturn then .feed true spacing (some before.seq) 0 else .strike (.cell before.seq)
        marked := before.drainMark }
  else none

/-- The impression of a code, or none for a code on no petal (R32, R33, R35). -/
def struck (t : WheelTable) (offset code : Nat) : List Impression :=
  match t.petalOf code with
  | some (n, p) => [{ petal := n, offset := offset, level := p.level, made := false }]
  | none => []

/-- An impression with its bold repeat (R34). -/
def twice (i : Impression) : List Impression := [i, { i with offset := i.offset + 1 }]

/-- A STRIKE of one of these cells, or a detached one (R149). -/
def strikesRemoved (removed : List Cell) : JobKind → Bool
  | .strike (.cell n) => removed.any fun c => c.seq == n
  | .strike (.detached _ _) => true
  | .lift _ _ _ _ | .feed _ _ _ _ | .cross _ _ _ _ => false

/-- A job after R77: a pending LIFT is fixed, and leaves the queue when it is fixed empty. -/
def fixedLift (j : Job) : Option Job :=
  match j.kind with
  | .lift p snap true n => if snap = [] then none else some { j with kind := .lift p snap false n }
  | .lift _ _ false _ | .strike _ | .feed _ _ _ _ | .cross _ _ _ _ => some j

/-- The FEED of a return (Table 4-2). -/
def feedOf (n : Nat) : JobKind → Bool
  | .feed _ _ (some m) _ => m == n
  | .feed _ _ none _ | .strike _ | .lift _ _ _ _ | .cross _ _ _ _ => false

/-- A FEED without its link (R78). -/
def unlinked (n : Nat) (j : Job) : Job :=
  match j.kind with
  | .feed d steps (some m) k => if m = n then { j with kind := .feed d steps none k } else j
  | .feed _ _ none _ | .strike _ | .lift _ _ _ _ | .cross _ _ _ _ => j

/-! ### The sequencer in the terms of chapter 4 -/

/-- RIBBON belongs to the suspend reason set (R65): the ribbon shows its end and the head job is a STRIKE not started or paused. -/
def ribbonReason (s : State) : Prop :=
  s.mon.levels.ribbonEnd = true ∧ (∃ t mk js, s.seq.jobs = { kind := .strike t, marked := mk } :: js)
    ∧ (s.seq.inFlight = false ∨ s.seq.phase = .paused)

/-- TAPE belongs to the suspend reason set (R65): the tape shows its end and the head job is a LIFT not started or paused. -/
def tapeReason (s : State) : Prop :=
  s.mon.levels.tapeEnd = true ∧ (∃ p l b n mk js, s.seq.jobs = { kind := .lift p l b n, marked := mk } :: js)
    ∧ (s.seq.inFlight = false ∨ s.seq.phase = .paused)

/-- The states in which jobs are taken, worked and suspended (Table 4-1). -/
def sequences (s : State) : Prop := s.seq.mech = .ready ∨ s.seq.mech = .busy ∨ s.seq.mech = .suspended

/-- No paper-out feed runs and no suspend reason holds (R65). -/
def unsuspended (s : State) : Prop :=
  sequences s ∧ s.seq.paperFeed = none ∧ s.seq.suspend.paper = false ∧ ¬ribbonReason s ∧ ¬tapeReason s

/-- The sequencer may take its head job or go on with it: none is in flight, or the one in flight is at rest or paused (R66). -/
def worksHead (s : State) : Prop := unsuspended s ∧ (s.seq.inFlight = true → s.seq.phase = .rest ∨ s.seq.phase = .paused)

/-- The head job in flight with the suspend set empty (R65, R66, R70): a job only taken now records the impression setting, and a park
move is abandoned. -/
def withHeadInFlight (s : State) : State :=
  if s.seq.inFlight then { s with seq := { s.seq with mech := .busy, suspend := {} } }
  else
    { s with
      seq := { s.seq with
        mech := .busy, suspend := {}, inFlight := true, flightSetting := s.seq.setting, phase := .rest, parking := false
        mark := false } }

/-! ### What the end of an event leaves alone -/

/-- What a cell keeps from its entry to its removal (Table 1-1), its word among it. -/
structure CellShape where
  seq : Nat
  kind : CellKind
  code : Nat
  bold : Bool
  underline : Bool
  width : Nat
  word : Option WordRef
  deriving DecidableEq, Repr

/-- The shape of a cell. -/
def Cell.shape (c : Cell) : CellShape :=
  { seq := c.seq, kind := c.kind, code := c.code, bold := c.bold, underline := c.underline, width := c.width, word := c.word }

/-- What a line keeps while no request changes its text. -/
structure LineShape where
  left : Nat
  right : Nat
  alignment : Alignment
  spacing : Nat
  cells : List CellShape
  bellRung : Bool
  segment : Option Segment
  placement : Option (List Nat)
  deriving DecidableEq, Repr

/-- The shape of a line. -/
def Line.shape (l : Line) : LineShape :=
  { left := l.left, right := l.right, alignment := l.alignment, spacing := l.spacing
    cells := l.cells.map Cell.shape, bellRung := l.bellRung, segment := l.segment, placement := l.placement }

/-- The part of the Line Store that text and settings requests alone change. -/
structure StoreKept where
  earlier : List LineShape
  openLine : LineShape
  openState : LineState
  nextSeq : Nat
  nextWord : Nat
  openWord : Option WordRef
  pendingApostrophe : Option Nat
  settings : LineSettings
  deriving DecidableEq, Repr

/-- `StoreKept` of a store. -/
def LineStore.kept (s : LineStore) : StoreKept :=
  { earlier := s.earlier.map Line.shape, openLine := s.openLine.shape, openState := s.openLine.state
    nextSeq := s.nextSeq, nextWord := s.nextWord, openWord := s.openWord, pendingApostrophe := s.pendingApostrophe
    settings := s.settings }

/-- The part of the Monitor that the end of an event leaves alone. -/
structure MonitorKept where
  levels : SensorLevels
  config : SensorSetups
  masks : GroupBits
  beeper : Option Beeper
  beeperEnable : Bool
  assignments : List LampFunction
  idleMinutes : Nat
  power : Power
  deriving DecidableEq, Repr

/-- `MonitorKept` of a Monitor. -/
def Monitor.kept (m : Monitor) : MonitorKept :=
  { levels := m.levels, config := m.config, masks := m.masks, beeper := m.beeper, beeperEnable := m.beeperEnable
    assignments := m.lamps.map (·.assignment), idleMinutes := m.idleMinutes, power := m.power }

/-- What the end of an event leaves alone. -/
structure Kept where
  pending : List Instr
  store : StoreKept
  platen : BitVec 16
  setting : Nat
  userList : List (List Nat)
  flagged : List Flagged
  availability : Availability
  enabled : Bool
  header : Option RomHeader
  image : List Byte
  settingsRead : Bool
  listRead : Bool
  dispState : DisplayState
  blinkOn : Bool
  gap : Bool
  sending : Option (List Byte)
  offOwed : Bool
  overlay : Option (List Nat)
  overlayTimer : Option Nat
  mon : MonitorKept
  receiver : Receiver
  rxMark : Bool
  input : List Frame
  hand : Option Frame
  errors : Nat
  highBaud : Bool
  standbyTx : Nat
  deriving DecidableEq, Repr

/-- `Kept` of a state. -/
def State.kept (s : State) : Kept :=
  { pending := s.pending, store := s.store.kept, platen := s.seq.platen, setting := s.seq.setting
    userList := s.spell.userList, flagged := s.spell.flagged, availability := s.spell.availability
    enabled := s.spell.enabled, header := s.mem.header, image := s.mem.image
    settingsRead := s.mem.settingsRead, listRead := s.mem.listRead, dispState := s.disp.state
    blinkOn := s.disp.blinkOn, gap := s.disp.gap, sending := s.disp.sending, offOwed := s.disp.offOwed
    overlay := s.disp.overlay, overlayTimer := s.disp.overlayTimer, mon := s.mon.kept
    receiver := s.link.receiver, rxMark := s.link.rxMark, input := s.link.input, hand := s.link.hand
    errors := s.link.errors, highBaud := s.link.highBaud, standbyTx := s.link.standbyTx }

/-! ### Bounds -/

/-- Filled and reserved places of the output queue (R189). -/
def places (k : ControlLink) : Nat := k.output.length + reservedPlaces k

/-- The bounds of the Control Link between two commands (R184, R186, R187, R189). -/
def LinkBounds (s : State) : Prop :=
  s.link.hand = none ∧ s.link.input.length ≤ Config.maxInput ∧ s.link.errors ≤ 255
    ∧ places s.link ≤ Config.outputPlaces

/-- The pending set is the groups with a latch set and unmasked (R173). -/
def PendingUpToDate (s : State) : Prop := s.mon.pendingSet = pendingOf s.mon.latches s.mon.masks

/-- The bounds of the job queue and the line list (R67, R7). -/
def QueueBounds (s : State) : Prop :=
  s.seq.jobs.length ≤ Config.maxJobs ∧ s.store.earlier.length < Config.maxLines

/-- The cells released stand before the cells HELD, in entry order (R55). -/
def releasedFirst (cs : List Cell) : Bool := (cs.dropWhile fun c => c.state != .held).all fun c => c.state == .held

end Sys2Proof.Machine
end

