-- ==== Sys2Proof/WellFormed.lean ====
section
/-! DEFINITION. Which commands can stand on the part's links: list operands have the lengths that a
frame or a memory transaction can carry. Value checks are the owning rules' (they refuse, R188). -/

namespace Sys2Proof

/-- A list operand fits its carrier: a payload of at most 32 bytes (R183), or the byte count of the
memory transaction it ends (R126, R151, R152, R154, Table 11-8). -/
def Instr.wellFormed : Instr → Bool
  | .keys _ recs => decide (recs.length ≤ 16)
  | .userWordDelete _ codes => decide (codes.length ≤ 32)
  | .displayOverlay _ _ _ codes => decide (codes.length ≤ 30)
  | .headerReadEnd bytes => decide (bytes.length = Config.headerBytes)
  | .tableLoadEnd bytes => decide (bytes.length = Config.tableBytes)
  | .directoryReadEnd bytes => decide (bytes.length = 3)
  | .bucketReadEnd bytes => decide (bytes.length ≤ 256)
  | .nvRecordReadEnd bytes => decide (bytes.length = Config.settingsBytes ∨ bytes.length = Config.listBytes)
  | .pageReadbackEnd bytes => decide (bytes.length = Config.pageBytes)
  | .identify _ | .status _ | .correct _ | .wordErase _ | .lineErase _ | .index _ _ _
  | .setMargins _ _ _ | .setLayout _ _ | .setTab _ _ _ | .clearTab _ _ | .clearAllTabs _
  | .spellAccept _ | .spellAdd _ | .userWordRead _ _ | .drain _ | .wheelAssign _ _ | .discard _
  | .recover _ | .displayRelease _ | .eventsRead _ _ | .eventsClear _ _ _ | .eventMask _ _ _
  | .sensorConfig _ _ _ _ _ | .lamp _ _ _ _ | .beep _ _ | .saveSettings _ | .reset _
  | .powerOnReset _ _ | .receiveByte _ | .brokenByte | .partialFrameTimeout | .takeRequest
  | .frameSent | .pageWriteEnd | .supervisionTick _ | .stall | .encoderEdge _ | .motionSettled
  | .hammerPulseEnd | .hammerHome | .lifterDone _ | .platenStep | .parkMoveDone | .wheelHomingEnd _
  | .sensorLevelChange _ _ | .idleTimerExpiry | .standbyEntry | .blinkTimerExpiry
  | .displaySendBegin | .displaySendEnd | .gapTimerExpiry | .overlayTimeout | .beeperTimerExpiry => true

/-- A request fits in one frame (R183). -/
def Request.wellFormed : Request → Bool
  | .keys recs => decide (recs.length ≤ 16)
  | .userWordDelete codes => decide (codes.length ≤ 32)
  | .displayOverlay _ _ codes => decide (codes.length ≤ 30)
  | .identify | .status | .correct | .wordErase | .lineErase | .index _ _ | .setMargins _ _
  | .setLayout _ | .setTab _ _ | .clearTab _ | .clearAllTabs | .spellEnable _ | .spellAccept
  | .spellAdd | .userWordRead _ | .drain | .wheelAssign _ | .resume | .discard | .recover
  | .displayRelease | .eventsRead _ | .eventsClear _ _ | .eventMask _ _ | .sensorConfig _ _ _ _
  | .lamp _ _ _ | .beep _ | .saveSettings | .reset => true

end Sys2Proof
end

