-- ==== Sys2Proof/Certificates/Slice0/Obligations.lean ====
section
/-! DEFINITION. The statements for the provers. -/

open Sys2Proof Sys2Proof.Machine

/-! ### The queue of commands and the control link -/

/-- One step takes the command at the front of the queue and runs it on the state with the queue's rest; with an
empty queue the block idles (the model's choice, log 3). -/
def Obligations.StepRunsFrontCommand : Prop :=
  (∀ (c : Instr) (rest : List Instr) (s : State),
    step { s with pending := c :: rest } = exec c { s with pending := rest })
  ∧ ∀ s : State, s.pending = [] → step s = .next s

/-- A request row is a whole frame: it acts at once when the link can take a frame and none waits, otherwise it joins the
input buffer, or is dropped with INPUT_OVERRUN when the buffer holds 4. Its start byte restarts the countdown in RUNNING
and wakes the part in STANDBY. The model's reading (log 1) of R181, R184, R186 and R187. The link can take a frame
when the power-on record reads have ended, no request is in hand and a place of the output queue is neither filled nor reserved for a DRAIN or
a SAVE-SETTINGS; the countdown restarts from the idle minutes. -/
def Obligations.RequestRowTakenAtOnceOrWaits : Prop :=
  (∀ (c : Instr) (tag : Byte) (r : Request) (s w : State) (woke : Bool), asRequest c = some (tag, r) →
    (s.mon.power = .running ∧ w = restartIdle s ∧ woke = false
      ∨ s.mon.power = .standby ∧ w = eventEnd s.store.unprinted (wake s) ∧ woke = true) →
    (w.link.input = [] → canTake w = true → exec c s = .next (serve tag woke r (takeInHand (requestFrame tag woke r) w)))
    ∧ ((w.link.input ≠ [] ∨ canTake w = false) → w.link.input.length < 4 →
        exec c s = .next (noticeCheck { w with link := { w.link with input := w.link.input ++ [requestFrame tag woke r] } }))
    ∧ (4 ≤ w.link.input.length →
        exec c s = .next (noticeCheck (setLatch .inputOverrun { w with link := countError w.link }))))
  ∧ ∀ s : State,
      (canTake s = true ↔ s.mem.settingsRead = true ∧ s.mem.listRead = true ∧ s.link.hand = none
        ∧ s.link.output.length + s.link.drain.isSome.toNat + s.link.save.isSome.toNat < 8)
      ∧ restartIdle s = { s with mon := { s.mon with idle := s.mon.idle.map fun _ => s.mon.idleMinutes * 60 } }

/-- The bytes of a request's frame, received one at a time by a running part that is HUNTING, and the taking of that frame
do exactly what the request's row does (R183, R184, R186, R187 against log 1). -/
def Obligations.WireFrameActsAsRequestRow : Prop :=
  ∀ (c : Instr) (tag : Byte) (r : Request) (s : State), asRequest c = some (tag, r) → r.wellFormed = true →
    Taken s → PendingUpToDate s → s.link.receiver = .hunting → s.link.rxMark = false →
    ∃ t, takeBytes (frameLine r.kind tag r.payload) s = .next t ∧ exec .takeRequest t = exec c s

/-- Any frame of a kind, a tag and a payload of at most 32 bytes, sent on the line and received by a running part that is
HUNTING, arrives whole in the input buffer, without an error and with nothing else changed but the idle countdown. -/
def Obligations.ReceiverReassemblesFrames : Prop :=
  ∀ (kind tag : Byte) (payload : List Byte) (s : State), payload.length ≤ 32 → s.mon.power = .running →
    s.link.receiver = .hunting → s.link.input.length < 4 → PendingUpToDate s →
    takeBytes (frameLine kind tag payload) s
      = .next
          { restartIdle s with
            link :=
              { s.link with
                rxMark := false
                input := s.link.input ++ [{ kind := kind, tag := tag, payload := payload, woke := false }] } }

/-- The request read from the kind and the payload of a well-formed request is that request: no bit of the payload is
dropped. -/
def Obligations.RequestPayloadRoundTrip : Prop :=
  ∀ r : Request, r.wellFormed = true → decodeRequest r.kind r.payload = .ok r

/-- What the receiver does with each byte (R184, R186): HUNTING, the start byte, the escape, the byte after an escape, a body value, and
a byte without its stop bit. A frame error counts, sets FRAME_ERROR and leaves the receiver HUNTING. A body value with a length outside
2..34 is a frame error at once; a frame of length + 2 values that sum to 0 modulo 256 joins the input buffer, or is dropped with
INPUT_OVERRUN and a counted error when the buffer holds 4; a complete frame with another sum is a frame error. -/
def Obligations.ReceiverTakesEachByte : Prop :=
  State.reset.link.receiver = .hunting
  ∧ (∀ (b : Byte) (body : List Byte) (esc w : Bool) (s : State),
      (frameError s
        = { s with
            mon := { s.mon with latches := s.mon.latches.withLatch .frameError }
            link := { s.link with receiver := .hunting, rxMark := false, errors := min 255 (s.link.errors + 1) } })
      ∧ (s.mon.power = .running →
          startFrame s = { restartIdle s with link := { s.link with receiver := .assembling [] false false, rxMark := false } })
      ∧ (s.mon.power = .standby →
          startFrame s = eventEnd s.store.unprinted
            (wake { s with link := { s.link with receiver := .assembling [] false true, rxMark := false } }))
      ∧ (s.link.receiver = .hunting →
          exec .brokenByte s = .next (noticeCheck s)
          ∧ (b ≠ 0xD4 → exec (.receiveByte b) s = .next (noticeCheck s))
          ∧ exec (.receiveByte 0xD4) s = .next (noticeCheck (startFrame s)))
      ∧ (s.link.receiver = .assembling body esc w →
          exec .brokenByte s = .next (noticeCheck (frameError s))
          ∧ exec (.receiveByte 0xD4) s = .next (noticeCheck (startFrame (frameError s))))
      ∧ (s.link.receiver = .assembling body true w →
          exec (.receiveByte 0xF4) s = .next (noticeCheck (pushValue 0xD4 body w s))
          ∧ exec (.receiveByte 0xF5) s = .next (noticeCheck (pushValue 0xD5 body w s))
          ∧ (b ≠ 0xD4 → b ≠ 0xF4 → b ≠ 0xF5 → exec (.receiveByte b) s = .next (noticeCheck (frameError s))))
      ∧ (s.link.receiver = .assembling body false w →
          exec (.receiveByte 0xD5) s
            = .next (noticeCheck { s with link := { s.link with receiver := .assembling body true w, rxMark := false } })
          ∧ (b ≠ 0xD4 → b ≠ 0xD5 → exec (.receiveByte b) s = .next (noticeCheck (pushValue b body w s)))))
  ∧ ∀ (v : Byte) (body : List Byte) (w : Bool) (n : Nat) (s : State), ((body ++ [v]).headD 0).toNat = n →
      ((n < 2 ∨ 34 < n) → pushValue v body w s = frameError s)
      ∧ (2 ≤ n → n ≤ 34 → body.length + 1 ≠ n + 2 →
          pushValue v body w s
            = { s with link := { s.link with receiver := .assembling (body ++ [v]) false w, rxMark := false } })
      ∧ (2 ≤ n → n ≤ 34 → body.length + 1 = n + 2 → byteSum (body ++ [v]) ≠ 0 → pushValue v body w s = frameError s)
      ∧ (2 ≤ n → n ≤ 34 → body.length + 1 = n + 2 → byteSum (body ++ [v]) = 0 → s.link.input.length < 4 →
          pushValue v body w s
            = { s with
                link :=
                  { s.link with
                    receiver := .hunting, rxMark := false
                    input := s.link.input
                      ++ [{ kind := body.getD 1 0, tag := body.getD 2 0, payload := body.drop 3, woke := w }] } })
      ∧ (2 ≤ n → n ≤ 34 → body.length + 1 = n + 2 → byteSum (body ++ [v]) = 0 → 4 ≤ s.link.input.length →
          pushValue v body w s
            = { s with
                mon := { s.mon with latches := s.mon.latches.withLatch .inputOverrun }
                link :=
                  { s.link with receiver := .hunting, rxMark := false, errors := min 255 (s.link.errors + 1) } })

/-- The two-tick mark of the frame being assembled (R185): a tick sets it, a tick or the time-out that finds it set makes
the frame a frame error; without a frame, or in standby, nothing happens. PARTIAL_FRAME_TIMEOUT alone is that part of a
tick (the model's reading, log 7). -/
def Obligations.TickEndsPartialFrames : Prop :=
  ∀ (body : List Byte) (esc w moved : Bool) (s : State),
    (s.mon.power = .running → s.link.receiver = .assembling body esc w → s.link.rxMark = true →
      exec .partialFrameTimeout s = .next (noticeCheck (frameError s)))
    ∧ ((s.mon.power = .standby ∨ s.link.receiver = .hunting ∨ s.link.rxMark = false) →
        exec .partialFrameTimeout s = .next s)
    ∧ (s.mon.power = .standby → exec (.supervisionTick moved) s = .next s)
    ∧ (s.mon.power = .running → motionInProgress s.seq = false → s.mem.transaction = none →
        (s.link.receiver = .hunting → exec (.supervisionTick moved) s = .next (eventEnd s.store.unprinted s))
        ∧ (s.link.receiver = .assembling body esc w → s.link.rxMark = false →
            exec (.supervisionTick moved) s
              = .next (eventEnd s.store.unprinted { s with link := { s.link with rxMark := true } }))
        ∧ (s.link.receiver = .assembling body esc w → s.link.rxMark = true →
            exec (.supervisionTick moved) s = .next (eventEnd s.store.unprinted (frameError s))))

/-- TAKE_REQUEST (R187, R188): the oldest frame of the buffer becomes the request in hand and is served when the link can take
one; a frame that the link itself refuses changes no state but the buffer and the output queue; otherwise nothing happens
(the model's reading of a row without its conditions, log 30). -/
def Obligations.TakeRequestServesOldestFrame : Prop :=
  ∀ (f : Frame) (rest : List Frame) (s : State),
    ((s.link.input = [] ∨ canTake s = false) → exec .takeRequest s = .next s)
    ∧ (canTake s = true → s.link.input = f :: rest →
        (∀ r, decodeRequest f.kind f.payload = .ok r →
          exec .takeRequest s
            = .next (serve f.tag f.woke r { s with link := { s.link with input := rest, hand := some f } }))
        ∧ (decodeRequest f.kind f.payload = .error .unknownKind →
            exec .takeRequest s
              = .next { s with
                  link :=
                    { s.link with
                      input := rest
                      output := s.link.output ++ [{ kind := 0xE1, tag := f.tag, payload := [2, f.kind] }] } })
        ∧ (decodeRequest f.kind f.payload = .error .badLength →
            exec .takeRequest s
              = .next { s with
                  link :=
                    { s.link with
                      input := rest
                      output := s.link.output ++ [{ kind := 0xE1, tag := f.tag, payload := [1, f.kind] }] } }))

/-- The link's own check (R188, Table 10-3): a kind outside 0x01..0x20 is UNKNOWN_KIND, a payload length that Table 10-3
does not permit is BAD_LENGTH, and every other frame of at most 32 payload bytes is a request of that kind. -/
def Obligations.KindIsCheckedBeforeLength : Prop :=
  ∀ (kind : Byte) (payload : List Byte), payload.length ≤ 32 →
    ((kind.toNat = 0 ∨ 0x20 < kind.toNat) → decodeRequest kind payload = .error .unknownKind)
    ∧ (1 ≤ kind.toNat → kind.toNat ≤ 0x20 → lengthPermitted kind.toNat payload.length = false →
        decodeRequest kind payload = .error .badLength)
    ∧ (1 ≤ kind.toNat → kind.toNat ≤ 0x20 → lengthPermitted kind.toNat payload.length = true →
        ∃ r, decodeRequest kind payload = .ok r ∧ r.kind = kind)

/-- FRAME_SENT (R189, R180): the oldest filled place becomes free, every other frame keeps its order; in standby only as many
frames as were queued when standby began. The bytes that leave on TXD are those of the oldest frame in the form of R183. -/
def Obligations.SentFrameLeavesTheOutputQueue : Prop :=
  ∀ s : State,
    (∀ f rest, s.link.output = f :: rest → (s.mon.power = .running ∨ 0 < s.link.standbyTx) →
      txBytes s = some (frameLine f.kind f.tag f.payload))
    ∧ ((s.link.output = [] ∨ s.mon.power = .standby ∧ s.link.standbyTx = 0) → txBytes s = none) ∧
    (s.mon.power = .running →
      exec .frameSent s = .next { s with link := { s.link with output := s.link.output.tail } })
    ∧ (s.mon.power = .standby → s.link.standbyTx = 0 → exec .frameSent s = .next s)
    ∧ (s.mon.power = .standby → 0 < s.link.standbyTx →
        exec .frameSent s
          = .next { s with link := { s.link with output := s.link.output.tail, standbyTx := s.link.standbyTx - 1 } })

/-! ### Invariants -/

/-- Every step keeps the bounds of the Control Link: no request in hand, at most 4 frames buffered, an error count of at most
255, and filled and reserved places of the output queue of at most 8 together (R184, R186, R187, R189). -/
def Obligations.LinkBoundsKeptByEveryStep : Prop :=
  ∀ s t : State, LinkBounds s → step s = .next t → LinkBounds t

/-- Every step keeps the job queue at 256 jobs and the line list at 4 lines (R67, R57, R7). -/
def Obligations.QueueBoundsKeptByEveryStep : Prop :=
  ∀ s t : State, QueueBounds s → step s = .next t → QueueBounds t

/-- Every step leaves the pending set equal to the groups that have a latch set and unmasked (R173). -/
def Obligations.PendingSetFollowsLatchesAndMasks : Prop :=
  ∀ s t : State, PendingUpToDate s → step s = .next t → PendingUpToDate t

/-- The three invariants hold of the part right after reset. -/
def Obligations.InvariantsHoldAtReset : Prop :=
  LinkBounds State.reset ∧ QueueBounds State.reset ∧ PendingUpToDate State.reset

/-! ### Reports, settings and work waited for -/

/-- IDENTIFY and STATUS change nothing but the output queue (and the countdown that their start byte restarts): each adds one frame
with the contents of its rule (R192, R175 and Table 9-4). STATUS's column is that of the table in force, its wheel ID the active table's. -/
def Obligations.IdentifyAndStatusOnlyAnswer : Prop :=
  ∀ (tag : Byte) (s : State), Taken s →
    exec (.identify tag) s
      = .next (answered { kind := 0x81, tag := tag, payload := (
          ([0x4B, 0x1C, 0x62, 0x00, 0x01] : List Byte) ++ bytes16 (match s.mem.header with | some h => h.revision | none => 0xFFFF)
            ++ [BitVec.ofNat 8 s.mem.active.id, s.mem.active.kind.byte]) } s)
    ∧ exec (.status tag) s
      = .next (answered { kind := 0x82, tag := tag, payload := (
          [s.seq.mech.byte, s.seq.suspend.byte, levelsByte s.mon.levels]
            ++ bytes16 (match s.seq.carriage with | some p => p | none => 0)
            ++ bytes16 s.seq.platen.toNat ++ bytes16 s.store.openLine.typingPoint
            ++ bytes16 (columnNumber (tableInForce s) s.store.openLine)
            ++ [BitVec.ofNat 8 s.store.unprinted] ++ bytes16 s.store.freeCells ++ bytes16 s.seq.jobs.length
            ++ [BitVec.ofNat 8 s.spell.queue.length, BitVec.ofNat 8 s.spell.flagged.length
              , BitVec.ofNat 8 s.mem.active.id, 0]
            ++ bytes16 (match s.mon.idle with | some _ => s.mon.idleMinutes * 60 | none => 0xFFFF)
            ++ [s.mon.pendingSet.byte, lampsByte s.mon.lamps, BitVec.ofNat 8 s.link.errors]) } s)

/-- SET-TAB, CLEAR-TAB and CLEAR-ALL-TABS (R25): a stop at the position has its kind changed, another is inserted in order, a
full table refuses FULL, a position above 1560 or an unknown kind BAD_VALUE, a position without a stop BAD_VALUE; nothing
but the tab table, the output queue and the restarted countdown changes. That BAD_VALUE comes before FULL where both apply is the model's
choice (log 55). -/
def Obligations.TabRequestsChangeTheTable : Prop :=
  ∀ (tag kind : Byte) (pos : Half) (s : State), Taken s →
    (∀ k, tabKindOfByte kind = some k → pos.toNat ≤ 1560 →
      ((∃ t ∈ s.store.settings.tabs, t.position = pos.toNat) →
        exec (.setTab tag pos kind) s
          = .next (answered { kind := 0x8A, tag := tag, payload := [] }
              (withTabs
                (s.store.settings.tabs.map fun t => if t.position = pos.toNat then { t with kind := k } else t) s)))
      ∧ ((∀ t ∈ s.store.settings.tabs, t.position ≠ pos.toNat) → s.store.settings.tabs.length < 20 →
          ∃ tabs,
            exec (.setTab tag pos kind) s
              = .next (answered { kind := 0x8A, tag := tag, payload := [] } (withTabs tabs s))
            ∧ (∀ t, t ∈ tabs ↔ t = { position := pos.toNat, kind := k } ∨ t ∈ s.store.settings.tabs)
            ∧ tabs.length = s.store.settings.tabs.length + 1
            ∧ (stopsSorted s.store.settings.tabs = true → stopsSorted tabs = true))
      ∧ ((∀ t ∈ s.store.settings.tabs, t.position ≠ pos.toNat) → 20 ≤ s.store.settings.tabs.length →
          exec (.setTab tag pos kind) s
            = .next (answered { kind := 0xE1, tag := tag, payload := [5, 0x0A] } s)))
    ∧ ((1 < kind.toNat ∨ 1560 < pos.toNat) →
        exec (.setTab tag pos kind) s = .next (answered { kind := 0xE1, tag := tag, payload := [3, 0x0A] } s))
    ∧ ((∃ t ∈ s.store.settings.tabs, t.position = pos.toNat) →
        exec (.clearTab tag pos) s
          = .next (answered { kind := 0x8B, tag := tag, payload := [] }
              (withTabs (s.store.settings.tabs.filter fun t => t.position != pos.toNat) s)))
    ∧ ((∀ t ∈ s.store.settings.tabs, t.position ≠ pos.toNat) →
        exec (.clearTab tag pos) s = .next (answered { kind := 0xE1, tag := tag, payload := [3, 0x0B] } s))
    ∧ exec (.clearAllTabs tag) s
        = .next (answered { kind := 0x8C, tag := tag, payload := [] } (withTabs [] s))

/-- SET-MARGINS (R26): a pair with 0 ≤ left < right ≤ 1560 and right − left ≥ 120 becomes the settings, and the margins of the
OPEN line too when it holds no cells; the reply says which; any other pair is refused with no change. -/
def Obligations.SetMarginsAppliesOrRefuses : Prop :=
  ∀ (tag : Byte) (l r : Half) (s : State), Taken s →
    (l.toNat < r.toNat → r.toNat ≤ 1560 → 120 ≤ r.toNat - l.toNat →
      (s.store.openLine.cells = [] →
        exec (.setMargins tag l r) s
          = .next (answer { kind := 0x88, tag := tag, payload := [1] }
              (eventEnd s.store.unprinted
                { atBlock tag (.setMargins l r) s with
                  store :=
                    { s.store with
                      settings := { s.store.settings with left := l.toNat, right := r.toNat }
                      openLine := { s.store.openLine with left := l.toNat, right := r.toNat } } })))
      ∧ (s.store.openLine.cells ≠ [] →
          exec (.setMargins tag l r) s
            = .next (answer { kind := 0x88, tag := tag, payload := [0] }
                (eventEnd s.store.unprinted
                  { atBlock tag (.setMargins l r) s with
                    store :=
                      { s.store with settings := { s.store.settings with left := l.toNat, right := r.toNat } } }))))
    ∧ (¬(l.toNat < r.toNat ∧ r.toNat ≤ 1560 ∧ 120 ≤ r.toNat - l.toNat) →
        exec (.setMargins tag l r) s = .next (answered { kind := 0xE1, tag := tag, payload := [3, 0x08] } s))

/-- SET-LAYOUT (R27): with every present field in range each is applied, alignment and spacing also to an OPEN line without
cells, and the reply says whether they were; one field out of range refuses the request and applies none. What is not named is
kept (`State.kept`). When the change makes the WORD condition false, WORD leaves every cell; when it makes it true, every HELD letter cell
marked UNCHECKED, PENDING or MISS receives it (R54); otherwise no hold changes but by the release pass that ends the event. -/
def Obligations.SetLayoutAppliesCheckedFields : Prop :=
  ∀ (tag : Byte) (f : LayoutFields) (s : State), Taken s →
    (layoutInRange f →
      ∃ t u v, exec (.setLayout tag f) s = .next t
        ∧ t = answer
            { kind := 0x89, tag := tag, payload :=
              [if s.store.openLine.cells = [] ∧ (f.alignment.isSome ∨ f.lineSpacing.isSome) then 1 else 0] }
            (eventEnd s.store.unprinted v)
        ∧ u.store.cells = s.store.cells ∧ u.spell = s.spell ∧ u.seq.jobs = s.seq.jobs ∧ u.mem = s.mem
        ∧ (wordCondition s = true → wordCondition u = false →
            v = { u with store := u.store.mapCells fun c => { c with holds := { c.holds with word := false } } })
        ∧ (wordCondition s = false → wordCondition u = true →
            v = { u with
              store :=
                u.store.mapCells fun c =>
                  if c.state = .held ∧ (c.mark = some .unchecked ∨ c.mark = some .pending ∨ c.mark = some .miss) then
                    { c with holds := { c.holds with word := true } }
                  else c })
        ∧ (wordCondition u = wordCondition s → v = u)
        ∧ (wordCondition u
            = (decide ((f.releaseMode.bind releaseModeOfByte).getD s.store.settings.releaseMode = .word) && s.spell.enabled
                && decide (s.spell.availability ≠ .unavailable)))
        ∧ t.kept
          = { s.kept with
              store :=
                { s.store.kept with
                  settings :=
                    { s.store.settings with
                      alignment := (f.alignment.bind alignmentOfByte).getD s.store.settings.alignment
                      spacing := (f.lineSpacing.map BitVec.toNat).getD s.store.settings.spacing
                      releaseMode := (f.releaseMode.bind releaseModeOfByte).getD s.store.settings.releaseMode
                      decimalChar := (f.decimalChar.map BitVec.toNat).getD s.store.settings.decimalChar
                      bellWidth := (f.bellWidth.map BitVec.toNat).getD s.store.settings.bellWidth }
                  openLine :=
                    if s.store.openLine.cells = [] then
                      { s.store.openLine.shape with
                        alignment := (f.alignment.bind alignmentOfByte).getD s.store.openLine.alignment
                        spacing := (f.lineSpacing.map BitVec.toNat).getD s.store.openLine.spacing }
                    else s.store.openLine.shape }
              setting := (f.impression.map BitVec.toNat).getD s.seq.setting
              mon :=
                { s.mon.kept with
                  beeperEnable := (f.beeperEnable.bind boolOfByte).getD s.mon.beeperEnable
                  beeper := if f.beeperEnable = some 0 then none else s.mon.beeper
                  idleMinutes := (f.idleMinutes.map BitVec.toNat).getD s.mon.idleMinutes } }
        ∧ t.link.output.getLast?
          = some { kind := 0x89, tag := tag, payload :=
              [if s.store.openLine.cells = [] ∧ (f.alignment.isSome ∨ f.lineSpacing.isSome) then 1 else 0] })
    ∧ (¬layoutInRange f →
        exec (.setLayout tag f) s = .next (answered { kind := 0xE1, tag := tag, payload := [3, 0x09] } s))

/-- INDEX (R93): a direction and a count in range, no cell in the OPEN line, none HELD and room in the queue append a FEED of
4 × count steps without a link and clear the reach flag of the line before; otherwise BAD_VALUE, NOT_EMPTY and FULL, in that
order, change nothing. -/
def Obligations.IndexAppendsItsFeed : Prop :=
  ∀ (tag d n : Byte) (s : State), Taken s →
    (d.toNat ≤ 1 → 1 ≤ n.toNat → n.toNat ≤ 4 → s.store.openLine.cells = [] → s.store.anyHeld = false →
      s.seq.jobs.length < 256 →
      ∀ earlier, (s.store.earlier = [] ∧ earlier = []
          ∨ ∃ ls l, s.store.earlier = ls ++ [l] ∧ earlier = ls ++ [{ l with reach := false }]) →
        ∃ t, t = eventEnd s.store.unprinted
              { atBlock tag (.index d n) s with
                store := { s.store with earlier := earlier }
                seq :=
                  { s.seq with
                    jobs := s.seq.jobs ++ [{ kind := .feed (d == 0) (4 * n.toNat) none 0, marked := false }] } }
          ∧ exec (.index tag d n) s = .next (answer { kind := 0x87, tag := tag, payload := [] } t)
          ∧ t.store.openLine.shape = s.store.openLine.shape
          ∧ t.store.openLine.typingPoint = s.store.openLine.typingPoint
          ∧ parkPoint t.store.openLine = parkPoint s.store.openLine)
    ∧ ((1 < d.toNat ∨ n.toNat = 0 ∨ 4 < n.toNat) →
        exec (.index tag d n) s = .next (answered { kind := 0xE1, tag := tag, payload := [3, 0x07] } s))
    ∧ (d.toNat ≤ 1 → 1 ≤ n.toNat → n.toNat ≤ 4 → (s.store.openLine.cells ≠ [] ∨ s.store.anyHeld = true) →
        exec (.index tag d n) s = .next (answered { kind := 0xE1, tag := tag, payload := [11, 0x07] } s))
    ∧ (d.toNat ≤ 1 → 1 ≤ n.toNat → n.toNat ≤ 4 → s.store.openLine.cells = [] → s.store.anyHeld = false →
        256 ≤ s.seq.jobs.length →
        exec (.index tag d n) s = .next (answered { kind := 0xE1, tag := tag, payload := [5, 0x07] } s))

/-- DRAIN (R60, R61, R190): it marks every cell not PRINTED and every job and keeps its tag, its place staying reserved; with nothing to mark
it is answered at once; a second one is refused BUSY and the outstanding one is unchanged. When no marked cell is left unprinted and no
marked job is left, its reply is queued with the tag it keeps, it is no longer outstanding and every drain mark returns to no; until then it
waits. SAVE-SETTINGS (R155, R190): it queues a settings save and keeps its tag, its place staying reserved; a second one is refused BUSY.
That judgement is part of the end of every event: the checks are taken, the bus granted, cells released, the sequencer goes on, the
type-ahead events and DRAIN are judged, and lamps, idle countdown, display and pending set follow (the order of these is the model's, log 48 for
a DRAIN and a SAVE-SETTINGS that one event ends). A group is pending with a latch set and unmasked, and a NOTICE
of the whole pending set joins the output queue at the end of an event that made a group pending, while the filled and the reserved places are
fewer than 8 (R173). TA_HIGH is set when the unprinted count was below 112 before the event and is 112 or more
after it, TA_EMPTY when it was above 0 and is 0 (R59). -/
def Obligations.DeferredRequestsKeepTheirTag : Prop :=
  (∀ (tag : Byte) (s : State), Taken s →
     (s.link.drain ≠ none →
       exec (.drain tag) s = .next (answered { kind := 0xE1, tag := tag, payload := [4, 0x12] } s))
     ∧ (s.link.drain = none → (∀ c ∈ s.store.cells, c.state = .printed) → s.seq.jobs = [] →
         exec (.drain tag) s = .next (answered { kind := 0x92, tag := tag, payload := [] } s))
     ∧ (s.link.drain = none → ((∃ c ∈ s.store.cells, c.state ≠ .printed) ∨ s.seq.jobs ≠ []) →
         exec (.drain tag) s
           = .next
               { s with
                 store := s.store.mapCells fun c => if c.state = .printed then c else { c with drainMark := true }
                 seq := { s.seq with jobs := s.seq.jobs.map fun j => { j with marked := true } }
                 mon := { s.mon with idle := none }
                 link := { s.link with drain := some tag } }))
  ∧ (∀ (tag : Byte) (s : State), Taken s →
      (s.link.save ≠ none →
        exec (.saveSettings tag) s = .next (answered { kind := 0xE1, tag := tag, payload := [4, 0x1F] } s))
      ∧ (s.link.save = none →
          exec (.saveSettings tag) s
            = .next (eventEnd s.store.unprinted
                { restartIdle s with
                  mem := { s.mem with nv := s.mem.nv ++ [.saveSettings none] }
                  link := { s.link with save := some tag } })))
  ∧ (∀ (before : Nat) (s : State),
      eventEnd before s
        = noticeCheck (refreshDisplay (refreshIdle (refreshLamps (drainCheck (judgeTypeAhead before
            (seqUpdate (releasePass (grantBus (takeChecks s))))))))))
  ∧ (∀ s : State,
      (s.link.drain = none → drainCheck s = s)
      ∧ (((∃ c ∈ s.store.cells, c.drainMark = true ∧ c.state ≠ .printed) ∨ ∃ j ∈ s.seq.jobs, j.marked = true) →
          drainCheck s = s)
      ∧ ∀ tag, s.link.drain = some tag → (∀ c ∈ s.store.cells, c.drainMark = true → c.state = .printed) →
          (∀ j ∈ s.seq.jobs, j.marked = false) →
          drainCheck s
            = { s with
                store := s.store.mapCells fun c => { c with drainMark := false }
                link :=
                  { s.link with
                    output := s.link.output ++ [{ kind := 0x92, tag := tag, payload := [] }], drain := none } })
  ∧ (∀ (latches masks : GroupBits) (old p : PendingSet),
      (p = pendingOf latches masks →
        (p.mech = true ↔ latches.mech &&& ~~~masks.mech ≠ 0) ∧ (p.text = true ↔ latches.text &&& ~~~masks.text ≠ 0)
        ∧ (p.spell = true ↔ latches.spell &&& ~~~masks.spell ≠ 0) ∧ (p.link = true ↔ latches.link &&& ~~~masks.link ≠ 0)
        ∧ (p.sense = true ↔ latches.sense &&& ~~~masks.sense ≠ 0))
      ∧ (old.gained p = true ↔
          p.mech = true ∧ old.mech = false ∨ p.text = true ∧ old.text = false ∨ p.spell = true ∧ old.spell = false
            ∨ p.link = true ∧ old.link = false ∨ p.sense = true ∧ old.sense = false))
  ∧ (∀ (s : State) (p : PendingSet) (filled : Nat), p = pendingOf s.mon.latches s.mon.masks →
      filled = s.link.output.length + (s.link.hand.isSome.toNat + s.link.drain.isSome.toNat + s.link.save.isSome.toNat) →
      (s.mon.pendingSet.gained p = true → filled < 8 →
        noticeCheck s
          = { s with
              mon := { s.mon with pendingSet := p }
              link := { s.link with output := s.link.output ++ [{ kind := 0xE0, tag := 0, payload := [p.byte] }] } })
      ∧ ((s.mon.pendingSet.gained p = false ∨ 8 ≤ filled) →
          noticeCheck s = { s with mon := { s.mon with pendingSet := p } }))
  ∧ ∀ (before : Nat) (s : State),
      (before < 112 → 112 ≤ s.store.unprinted → judgeTypeAhead before s = setLatch .taHigh s)
      ∧ (0 < before → s.store.unprinted = 0 → judgeTypeAhead before s = setLatch .taEmpty s)
      ∧ ((112 ≤ before ∨ s.store.unprinted < 112) → (before = 0 ∨ s.store.unprinted ≠ 0) → judgeTypeAhead before s = s)

/-! ### Keys and corrections -/

/-- KEYS (R10): a record count outside 1..16 is refused BAD_LENGTH; otherwise the records are checked and entered one after the
other up to the first refusal, and the reply carries the keys accepted, the refusal code (0 for none), the free cells and the
unprinted count. A refused record changes nothing but its latch, the beep and the NOTICE they cause. -/
def Obligations.KeysStopAtFirstRefusal : Prop :=
  (∀ (tag : Byte) (recs : List KeyRec) (s : State), Taken s →
    ((recs = [] ∨ 16 < recs.length) →
      exec (.keys tag recs) s = .next (answered { kind := 0xE1, tag := tag, payload := [1, 0x03] } s))
    ∧ (1 ≤ recs.length → recs.length ≤ 16 →
        ∃ (n : Nat) (code : Option RefusalCode) (t : State),
          enterKeys recs (atBlock tag (.keys recs) s) = (n, code, t)
          ∧ n ≤ recs.length ∧ (code = none ↔ n = recs.length)
          ∧ exec (.keys tag recs) s
            = .next (answer
                { kind := 0x83, tag := tag, payload := (
                    [BitVec.ofNat 8 n, match code with | some e => e.byte | none => 0] ++ bytes16 t.store.freeCells
                      ++ [BitVec.ofNat 8 t.store.unprinted]) } t)))
  ∧ ∀ (s : State) (r : KeyRec) (rs : List KeyRec),
      enterKeys [] s = (0, none, s)
      ∧ (∀ k, checkKey s r = .ok k →
          enterKeys (r :: rs) s
            = ((enterKeys rs (enterKey k r s)).1 + 1, (enterKeys rs (enterKey k r s)).2.1, (enterKeys rs (enterKey k r s)).2.2))
      ∧ ∀ e, checkKey s r = .error e →
          ∃ t, enterKeys (r :: rs) s = (0, some e.code, t)
            ∧ (e.latch = none → t = s)
            ∧ ∀ l, e.latch = some l → t = noticeCheck (beep .long (setLatch l s))

/-- The entry checks in the order of Table 1-7 (R11 to R18), for every key code: the first check that fails gives the refusal and
its latch, and a key that passes all is entered as its class. A segment cell that grows leftward is not refused for the margin.
The table in force is the active table, or during WHEEL_WAIT the table that was active before it began (R12). A
code is on the wheel when a petal bears it; a glyph is there on the wheel or by a composition whose base and accent both are (R12); its
width, and a SPACE's, are those of Table 2-1 (R30). The typing point is the first case of Table 1-6 (R9). The lines that the key would drop
(R7, R8) are the oldest ones: the first for a return against a full list, then DONE lines while fewer cells than needed are free, up to the
first line that is not DONE and never the line before the OPEN line (that a DONE line goes though the next one is not DONE is the model's
choice between two sentences of R8, log 54); the free count that the checks use is that of the pool with their cells
back. -/
def Obligations.EntryChecksInOrder : Prop :=
  (∀ (s : State) (r : KeyRec) (c w : Nat), r.code.toNat = c →
    let l := s.store.openLine
    let wheel := tableInForce s
    let refused : Option Latch → RefusalCode → Except KeyRefusal KeyClass := fun la e => .error { code := e, latch := la }
    let centred := l.alignment = .center ∨ l.alignment = .flushRight
    let tooWide := l.right - l.left < l.naturalWidth + w
    let past := fun p : Nat => l.right < p ∧ ¬(r.release = true ∧ p ≤ 1560)
    let grows := fun decimal : Bool =>
      decimal = false ∧ ∃ g, l.segment = some g ∧ g.point + (widthIn g l.cells + w) ≤ g.stop
    ((¬(33 ≤ c ∧ c ≤ 126) ∧ ¬(160 ≤ c ∧ c ≤ 255) ∧ c ≠ 32 ∧ c ≠ 9 ∧ c ≠ 13 ∧ c ≠ 14) →
      checkKey s r = refused none .badValue)
    ∧ ((33 ≤ c ∧ c ≤ 126 ∨ 160 ≤ c ∧ c ≤ 255) → w = wheel.glyphWidth c →
        checkKey s r
          = if wheel.glyphAvailable c = false ∨ (r.underline = true ∧ wheel.onWheel wheel.underscore = false) then
              refused (some .noGlyph) .noGlyph
            else if 128 ≤ s.store.unprinted then refused (some .full) .full
            else if 191 ≤ l.cells.length ∨ freeAfterDrop false 2 s.store < 2 then refused none .lineFull
            else if (centred ∧ tooWide)
                ∨ (¬centred ∧ ¬grows (decide (c = s.store.settings.decimalChar))
                    ∧ past (keyLeaves s (decide (c = s.store.settings.decimalChar)) w)) then
              refused (some .marginLock) .margin
            else .ok .glyph)
    ∧ ((c = 32 ∨ c = 9 ∧ centred) → w = wheel.spaceWidthOf →
        checkKey s r
          = if r.underline = true ∧ wheel.onWheel wheel.underscore = false then refused (some .noGlyph) .noGlyph
            else if 128 ≤ s.store.unprinted then refused (some .full) .full
            else if 191 ≤ l.cells.length ∨ freeAfterDrop false 2 s.store < 2 then refused none .lineFull
            else if (centred ∧ tooWide) ∨ (¬centred ∧ ¬grows false ∧ past (keyLeaves s false w)) then
              refused (some .marginLock) .margin
            else .ok .space)
    ∧ (c = 9 → ¬centred →
        checkKey s r
          = if 128 ≤ s.store.unprinted then refused (some .full) .full
            else if 191 ≤ l.cells.length ∨ freeAfterDrop false 2 s.store < 2 then refused none .lineFull
            else
              match s.store.settings.tabs.find? (fun t => decide (l.typingPoint < t.position)) with
              | none => refused none .noStop
              | some d => if past d.position then refused (some .marginLock) .margin else .ok .tab)
    ∧ ((c = 13 ∨ c = 14) →
        checkKey s r
          = if 4 ≤ s.store.earlier.length + 1 ∧ (s.store.earlier.head?.map (·.state)) ≠ some .done then
              refused (some .full) .full
            else if freeAfterDrop true 1 s.store < 1 then refused none .lineFull
            else .ok (.ret (decide (c = 14)))))
  ∧ (∀ (isReturn : Bool) (need first n : Nat) (freed : Nat → Nat) (s : LineStore),
      (∀ m, freed m = 384 - s.cells.length + ((s.earlier.take m).map fun l => l.cells.length).sum) →
      first = (if isReturn = true ∧ s.earlier.length = 3 then 1 else 0) → n = linesToDrop isReturn need s →
      first ≤ n ∧ (s.earlier = [] ∨ n < s.earlier.length)
      ∧ (∀ m l, first ≤ m → m < n → s.earlier[m]? = some l → l.state = .done ∧ freed m < need)
      ∧ (n + 1 < s.earlier.length → need ≤ freed n ∨ ∃ l, s.earlier[n]? = some l ∧ l.state ≠ .done)
      ∧ freeAfterDrop isReturn need s = freed n)
  ∧ (∀ s : State,
      (∀ w, s.seq.mech = .wheelWait → s.mem.wait = some w → tableInForce s = w.table)
      ∧ ((s.seq.mech ≠ .wheelWait ∨ s.mem.wait = none) → tableInForce s = s.mem.active))
  ∧ (∀ (t : WheelTable) (code n : Nat) (p : Petal),
      (t.petalOf code = some (n, p) ↔
        code ≠ 0 ∧ t.petals[n]? = some p ∧ p.code = code ∧ ∀ i q, i < n → t.petals[i]? = some q → q.code ≠ code)
      ∧ (t.onWheel code = true ↔ code ≠ 0 ∧ ∃ q ∈ t.petals, q.code = code))
  ∧ (∀ (t : WheelTable) (code : Nat),
      (t.glyphAvailable code = true ↔ t.onWheel code = true
        ∨ ∃ m, t.compositions.find? (fun m => m.composite == code) = some m
            ∧ t.onWheel m.base = true ∧ t.onWheel m.accent = true)
      ∧ t.spaceWidthOf = (match t.kind with | .p10 => 12 | .p12 => 10 | .p15 => 8 | .ps => t.spaceWidth)
      ∧ (t.kind ≠ .ps → t.glyphWidth code = t.spaceWidthOf)
      ∧ (∀ n p, t.kind = .ps → t.petalOf code = some (n, p) → t.glyphWidth code = p.width)
      ∧ (∀ m n p, t.kind = .ps → t.petalOf code = none →
          t.compositions.find? (fun m => m.composite == code) = some m →
          t.petalOf m.base = some (n, p) → t.glyphWidth code = p.width))
  ∧ ∀ l : Line,
      l.naturalWidth = (l.cells.map (·.width)).sum
      ∧ (l.cells = [] → l.typingPoint = l.left)
      ∧ ∀ before x, l.cells = before ++ [x] →
          (∀ g tab, l.segment = some g → l.cells.find? (fun c => c.seq == g.tab) = some tab →
            l.typingPoint = g.point + tab.width + widthIn g l.cells)
          ∧ (l.segment = none → l.alignment = .flushLeft → l.typingPoint = x.position.getD l.left + x.width)
          ∧ (l.segment = none → l.alignment ≠ .flushLeft → l.typingPoint = l.left + l.naturalWidth)

/-- The entry of a GLYPH, SPACE or TAB key (R19, R16, R22, R23, R45, R46, R52, R53, Tables 1-1, 1-8 and 1-10). The key ends an overlay, and
the event ends with the release pass. A TAB or the decimal character first ends an open segment: its TAB takes its final width and the
segment's point as position, its cells stand edge to edge from the fixed start without DECIMAL, ALIGN_CLAMP is set when the start is
clamped. Then one cell joins the OPEN line: the key's code and attributes, the width of the table in force or the way to the stop, HELD,
LINE in a line that is not FLUSH_LEFT; in an open segment DECIMAL and no position; as a segment's decimal character edge to edge behind
it; otherwise at the typing point in a FLUSH_LEFT line. A TAB to a DECIMAL stop opens a segment, and a cell that joins one changes the width
of its TAB. A letter's cell, and an apostrophe pending before it, are letter cells of the open word; an apostrophe in a word is pending; any
other cell ends the word. All other cells stay as they are but for their spelling marks and WORD reasons. The bell rings by R21. A word that
ends is handed over with the codes of its letter cells in entry order, the code of the cell just before the first of them, and the delimiter:
the pending apostrophe, or else the cell entered (R24, Table 1-10). The lines before the OPEN line lose the oldest ones that the checks
counted (R8, R19) and keep their cells but for spelling marks and WORD reasons. Dropping lines takes their cells out; of every word with a
letter cell among them the cells left that are PENDING or MISS become SKIP without the WORD reason, its request leaves the check queue, a
lookup for it goes on as a stale read, and its flag goes (R132). -/
def Obligations.KeyEntersItsCell : Prop :=
  (∀ (k : KeyClass) (r : KeyRec) (s : State), (k = .glyph ∨ k = .space ∨ k = .tab) →
    enterKey k r s = eventEnd s.store.unprinted (enterCell k r { s with disp := endOverlay s.disp }))
  ∧ (∀ (k : KeyClass) (r : KeyRec) (s u : State) (l base : Line) (d : TabStop) (ends letter apostrophe : Bool) (joins : Option Segment)
      (old : List Cell) (w : Nat),
      (k = .glyph ∨ k = .space ∨ k = .tab) → s.store.cells.length ≤ 384 → l = s.store.openLine →
      (∀ g, l.segment = some g → (∃ x ∈ l.cells, x.seq = g.tab) ∧ g.tab ∉ g.cells) →
      ends = (l.segment.isSome && (k == .tab || k == .glyph && r.code.toNat == s.store.settings.decimalChar)) →
      base = (if ends then l.endSegment else l) →
      joins = (if ends then none else l.segment) →
      (k = .tab → s.store.settings.tabs.find? (fun t => decide (base.typingPoint < t.position)) = some d) →
      w = (if k = .tab then d.position - base.typingPoint
        else if k = .space then (tableInForce s).spaceWidthOf else (tableInForce s).glyphWidth r.code.toNat) →
      old = (match joins with
        | some g =>
          l.cells.map fun x => if x.seq = g.tab then { x with width := startOf g (widthIn g l.cells + w) - g.point } else x
        | none => base.cells) →
      letter = (k == .glyph && isLetterCode r.code.toNat) →
      apostrophe = (k == .glyph && r.code.toNat == 39 && s.store.openWord.isSome && s.store.pendingApostrophe.isNone) →
      u = enterCell k r s →
      ∃ c, u.store.openLine.cells.getLast? = some c
        ∧ (∀ x ∈ l.cells, x.seq ≠ c.seq)
        ∧ (∀ a, a = (if letter then s.store.pendingApostrophe else none) →
            u.store.openLine.cells.dropLast.map (Cell.besides a) = old.map (Cell.besides a)
            ∧ u.store.earlier.map (fun x => { x with cells := x.cells.map (Cell.besides a) })
              = (s.store.earlier.drop (linesToDrop false 2 s.store)).map
                  fun x => { x with cells := x.cells.map (Cell.besides a) })
        ∧ c.kind = k.kind ∧ c.code = (if k = .space then 32 else r.code.toNat) ∧ c.width = w
        ∧ c.bold = (k != .tab && r.bold) ∧ c.underline = (k != .tab && r.underline)
        ∧ c.state = .held ∧ c.impressions = [] ∧ c.drainMark = false
        ∧ c.holds.line = (l.alignment != .flushLeft) ∧ c.holds.decimal = joins.isSome
        ∧ (∀ g, joins = some g → c.position = none ∧ u.store.openLine.segment = some { g with cells := g.cells ++ [c.seq] }
            ∧ u.store.openLine.typingPoint = max g.stop (g.point + (widthIn g l.cells + w)))
        ∧ (joins = none →
            u.store.openLine.segment
              = (if k = .tab ∧ d.kind = .decimal then
                  some { stop := d.position, point := base.typingPoint, tab := c.seq, cells := [] }
                else none)
            ∧ (∀ g, k = .glyph → l.segment = some g →
                c.position = some (startOf g (widthIn g l.cells) + widthIn g l.cells))
            ∧ ((k ≠ .glyph ∨ l.segment = none) →
                c.position = if l.alignment = .flushLeft then some base.typingPoint else none))
        ∧ (u.mon.latches.has .alignClamp = true ↔
            s.mon.latches.has .alignClamp = true
              ∨ ends = true ∧ ∃ g, l.segment = some g ∧ g.stop < g.point + widthIn g l.cells)
        ∧ (letter = true →
            ∃ wd, c.word = some wd ∧ c.mark = some .unchecked ∧ c.holds.word = wordCondition s
              ∧ u.store.openWord = some wd ∧ u.store.pendingApostrophe = none
              ∧ (∀ o, s.store.openWord = some o → wd = o)
              ∧ (s.store.openWord = none → wd.generation = 0
                  ∧ ∀ x ∈ u.store.openLine.cells.dropLast, s.store.pendingApostrophe ≠ some x.seq → x.word ≠ some wd)
              ∧ ∀ x ∈ u.store.openLine.cells.dropLast, s.store.pendingApostrophe = some x.seq →
                  x.word = some wd ∧ x.mark = some .unchecked)
        ∧ (letter = false →
            c.word = none ∧ c.mark = none ∧ c.holds.word = false
            ∧ (apostrophe = true →
                u.store.openWord = s.store.openWord ∧ u.store.pendingApostrophe = some c.seq)
            ∧ (apostrophe = false →
                u.store.openWord = none
                ∧ ((s.store.openWord ≠ none ∨ s.store.pendingApostrophe = none) → u.store.pendingApostrophe = none)))
        ∧ u.store.openLine.bellRung
          = (l.bellRung
              || k == .glyph && s.store.settings.bellWidth != 0
                && decide (l.right < u.store.openLine.typingPoint + s.store.settings.bellWidth))
        ∧ (u.mon.latches.has .bell = true ↔
            s.mon.latches.has .bell = true ∨ l.bellRung = false ∧ u.store.openLine.bellRung = true)
        ∧ u.store.openLine.left = l.left ∧ u.store.openLine.right = l.right
        ∧ u.store.openLine.alignment = l.alignment ∧ u.store.openLine.spacing = l.spacing
        ∧ u.store.settings = s.store.settings ∧ u.seq = s.seq ∧ u.link = s.link)
  ∧ (∀ (l : Line) (g : Segment), l.segment = some g → g.tab ∉ g.cells →
      l.endSegment.segment = none ∧ l.endSegment.cells.length = l.cells.length
      ∧ ∀ before c after, l.cells = before ++ c :: after →
          l.endSegment.cells[before.length]?
            = some
                (if c.seq = g.tab then
                  { c with width := startOf g (widthIn g l.cells) - g.point, position := some g.point }
                else if c.seq ∈ g.cells then
                  { c with
                    position := some (startOf g (widthIn g l.cells) + widthIn g before)
                    holds := { c.holds with decimal := false } }
                else c))
  ∧ (∀ (k : KeyClass) (r : KeyRec) (s : State), (k = .glyph ∨ k = .space ∨ k = .tab) →
      ∃ c p, enterCell k r s = bellCheck c (trackEntry c p) ∧ c.kind = k.kind
        ∧ c.code = (if k = .space then 32 else r.code.toNat) ∧ p.store.openWord = s.store.openWord
        ∧ p.store.pendingApostrophe = s.store.pendingApostrophe)
  ∧ (∀ (n : Nat) (gone : Nat → Bool) (s : State),
      (∀ m, gone m = true ↔ ∃ l ∈ s.store.earlier.take n, ∃ c ∈ l.cells, c.word.map (·.number) = some m) →
      dropLines n s
        = { s with
            store := ({ s.store with earlier := s.store.earlier.drop n } : LineStore).mapCells fun c =>
              if (∃ w, c.word = some w ∧ gone w.number = true) ∧ (c.mark = some .pending ∨ c.mark = some .miss) then
                { c with mark := some .skip, holds := { c.holds with word := false } }
              else c
            spell :=
              { s.spell with
                queue := s.spell.queue.filter fun q => !gone q.word.number
                lookup :=
                  if ∃ q ∈ s.spell.queue, gone q.word.number = true ∧ q.reading = true then
                    s.spell.lookup.map fun k => { k with stale := true }
                  else s.spell.lookup
                flagged := s.spell.flagged.filter fun f => !gone f.word.number } })
  ∧ (∀ (x : Cell) (s : State), (x.kind ≠ .glyph ∨ isLetterCode x.code = false) →
      (x.kind ≠ .glyph ∨ x.code ≠ 39 ∨ s.store.openWord = none ∨ s.store.pendingApostrophe ≠ none) →
      trackEntry x s = completeWord (if s.store.pendingApostrophe = none then x.code else 39) s)
  ∧ ∀ (delimiter : Nat) (s : State),
      (s.store.openWord = none → completeWord delimiter s = s)
      ∧ ∀ w front first back, s.store.openWord = some w → s.store.openLine.cells = front ++ first :: back →
          first.word = some w → (∀ c ∈ front, c.word ≠ some w) →
          completeWord delimiter s
            = handOff w ((s.store.openLine.cells.filter fun c => c.word == some w).map (·.code))
                (front.getLast?.map (·.code)) delimiter
                { s with store := { s.store with openWord := none, pendingApostrophe := none } }

/-- The entry of a RETURN or PARA-RETURN key (R20, R7, R37 to R44, R51, R159): an open segment ends, the OPEN line with the return as its last
cell joins the closed lines, CLOSED, reach set and without LINE holds; a fresh line with the settings' copies is the OPEN line; the window starts
at its first cell. The cells are placed by the line's alignment: a FLUSH_LEFT line's cells, and every released cell, keep their positions, the
HELD cells behind a released one standing edge to edge behind it; a held line's body is centred, right-aligned, justified with its gap extras, or
flush left with JUSTIFY_SKIP by the test of R42 (the space width is that of the table in force; that a line without a GLYPH sets no JUSTIFY_SKIP
with a decimal segment in it too is the model's choice between R42 and R47, log 56); the trailing spaces follow behind, up to the right stop (a
line of spaces only has no body: the model's choice, log 37); the return stands at the end of the last of them. An open word completes with the
return as its delimiter and is handed over from the line with the return, before the close (R20 step 4, R24; the return stands for a pending
apostrophe too: log 45); then no word is open and no apostrophe pending. The key ends an overlay, and the event ends with the release pass. -/
def Obligations.ReturnClosesTheLine : Prop :=
  (∀ (para : Bool) (s u : State) (base : Line), base = s.store.openLine.endSegment → u = enterReturn para s →
    (∀ g, s.store.openLine.segment = some g →
      s.store.cells.length ≤ 384 ∧ ∃ x ∈ s.store.openLine.cells, x.seq = g.tab) →
    u.store.openLine = freshLine s.store.settings ∧ u.disp.winStart = 0 ∧ u.store.settings = s.store.settings
    ∧ ∃ (older : List Line) (l : Line) (c : Cell),
        u.store.earlier = older ++ [l]
        ∧ older.map Line.shape = (s.store.earlier.drop (linesToDrop true 1 s.store)).map Line.shape
        ∧ l.state = .closed ∧ l.reach = true ∧ (∀ x ∈ l.cells, x.holds.line = false)
        ∧ l.left = s.store.openLine.left ∧ l.right = s.store.openLine.right
        ∧ l.alignment = s.store.openLine.alignment ∧ l.spacing = s.store.openLine.spacing ∧ l.segment = none
        ∧ l.cells.dropLast.map Cell.shape = base.cells.map Cell.shape
        ∧ l.cells.getLast? = some c ∧ c.kind = (if para then .paraRet else .ret) ∧ c.width = 0
        ∧ c.state = .held ∧ c.holds = {}
        ∧ c.position
          = some (match l.cells.dropLast.getLast? with
            | some x => x.position.getD l.left + x.width
            | none => l.left)
        ∧ (u.mon.latches.has .alignClamp = true ↔
            s.mon.latches.has .alignClamp = true
              ∨ ∃ g, s.store.openLine.segment = some g ∧ g.stop < g.point + widthIn g s.store.openLine.cells)
        ∧ (l.alignment = .flushLeft →
            l.placement = some [] ∧ l.cells.dropLast.map (·.position) = base.cells.map (·.position)
            ∧ u.mon.latches.has .justifySkip = s.mon.latches.has .justifySkip)
        ∧ ((∃ x ∈ base.cells, x.state ≠ .held) →
            l.placement = some [] ∧ u.mon.latches.has .justifySkip = s.mon.latches.has .justifySkip
            ∧ ∀ (i : Nat) (x : Cell), base.cells[i]? = some x → x.state ≠ .held → (l.cells[i]?).map (·.position) = some x.position)
        ∧ (∀ pre y post, l.alignment ≠ .flushLeft → base.placement = none → base.cells = pre ++ y :: post → y.state ≠ .held →
            y.isReturn = false → (∀ x ∈ post, x.state = .held) →
            ∀ (i : Nat) (x : Cell), post[i]? = some x →
              (l.cells[pre.length + 1 + i]?).map (·.position)
                = some (some (y.position.getD l.left + y.width + cellsWidth ((pre.filter fun z => z.state == .held) ++ post.take i))))
        ∧ (l.alignment ≠ .flushLeft → (∀ x ∈ base.cells, x.state = .held) →
            ∀ (body tail : List Cell) (W T g nominal start : Nat) (tested justified : Bool),
              base.cells = body ++ tail → (∀ x ∈ tail, x.kind = .space) →
              (body = [] ∨ ∃ b x, body = b ++ [x] ∧ x.kind ≠ .space) →
              W = cellsWidth body → T = l.right - l.left → g = gapsBefore base.cells base.cells.length →
              nominal = (tableInForce s).spaceWidthOf →
              (tested = true ↔ l.alignment = .justify ∧ para = false ∧ ∃ x ∈ base.cells, x.kind = .glyph) →
              (justified = true ↔
                tested = true ∧ g ≠ 0 ∧ W ≤ T ∧ (∀ x ∈ base.cells, x.kind ≠ .tab) ∧ (T - W + g - 1) / g ≤ 2 * nominal) →
              start
                = (if l.alignment = .center ∧ W ≤ T then l.left + (T - W) / 2
                  else if l.alignment = .flushRight ∧ W ≤ T then l.right - W else l.left) →
              (∀ (i : Nat) (x : Cell), body[i]? = some x →
                (l.cells[i]?).map (·.position)
                  = some (some (start + cellsWidth (body.take i)
                      + if justified then extraBefore g (T - W) (gapsBefore base.cells i) else 0)))
              ∧ (∀ (i : Nat) (x : Cell) (p : Nat), tail[i]? = some x →
                  p = (match (l.cells.take (body.length + i)).getLast? with
                    | some y => y.position.getD l.left + y.width
                    | none => start) →
                  (l.cells[body.length + i]?).map (·.position) = some (some (min p (1560 - x.width))))
              ∧ l.placement
                = some (if justified then
                    (List.range g).map fun i => if i < (T - W) % g then (T - W) / g + 1 else (T - W) / g
                  else [])
              ∧ (u.mon.latches.has .justifySkip = true ↔
                  s.mon.latches.has .justifySkip = true ∨ tested = true ∧ justified = false)))
  ∧ (∀ (para : Bool) (s u d : State) (c : Cell),
      d = dropLines (linesToDrop true 1 s.store) s → u = enterReturn para s →
      c = { seq := d.store.newSeq, kind := if para then .paraRet else .ret, code := if para then 14 else 13 } →
      ∃ x y l,
        x.store.openLine = ({ d.store.openLine with cells := d.store.openLine.cells ++ [c] } : Line).endSegment
        ∧ x.store.earlier = d.store.earlier ∧ x.store.openWord = s.store.openWord
        ∧ x.store.pendingApostrophe = s.store.pendingApostrophe ∧ x.spell = d.spell ∧ x.mem = d.mem
        ∧ x.mon.latches.has .spellOverrun = s.mon.latches.has .spellOverrun
        ∧ y = completeWord (if para then 14 else 13) x
        ∧ u.spell = y.spell ∧ u.mem = y.mem ∧ u.mon.latches.has .spellOverrun = y.mon.latches.has .spellOverrun
        ∧ u.store.openWord = y.store.openWord ∧ u.store.pendingApostrophe = y.store.pendingApostrophe
        ∧ u.store.earlier = y.store.earlier ++ [l]
        ∧ l.cells.map (fun c => (c.word, c.mark, c.holds.word))
          = y.store.openLine.cells.map (fun c => (c.word, c.mark, c.holds.word))
        ∧ ((s.store.openWord ≠ none ∨ s.store.pendingApostrophe = none) →
            u.store.openWord = none ∧ u.store.pendingApostrophe = none))
  ∧ ∀ (para : Bool) (r : KeyRec) (s : State),
      enterKey (.ret para) r s = eventEnd s.store.unprinted (enterReturn para { s with disp := endOverlay s.disp })

/-- CORRECT, WORD-ERASE and LINE-ERASE on an OPEN line with cells (R98, R106, R111, R112): the chosen cells are taken off the end of the
line whole, when the jobs they need have places, and the reply is that of Table 5-2; otherwise the request is refused FULL, with its
latch and beep, and nothing is removed. WORD-ERASE and LINE-ERASE on an empty line are refused NOTHING. -/
def Obligations.CorrectionIsWholeOrRefused : Prop :=
  (∀ (tag : Byte) (c : Instr) (rq : Request) (n : Nat) (s : State), Taken s →
    (c = .correct tag ∧ rq = .correct ∧ n = 1
      ∨ c = .wordErase tag ∧ rq = .wordErase ∧ n = wordEraseCount s.store.openLine.cells.reverse
      ∨ c = .lineErase tag ∧ rq = .lineErase ∧ n = s.store.openLine.cells.length) →
    s.store.openLine.cells ≠ [] →
    ∀ places,
      places = (s.store.openLine.cells.drop (s.store.openLine.cells.length - n)).countP (needsPlace s.seq) →
      (s.seq.jobs.length + places ≤ 256 →
        ∃ t, t = eventEnd s.store.unprinted (removeCells n (atBlock tag rq s))
          ∧ exec c s
            = .next (answer
                { kind := rq.kind + 0x80, tag := tag, payload := (
                    [BitVec.ofNat 8 n, BitVec.ofNat 8 places, 0] ++ bytes16 t.store.freeCells
                      ++ [BitVec.ofNat 8 t.store.unprinted] ++ bytes16 (256 - t.seq.jobs.length)) } t))
      ∧ (256 < s.seq.jobs.length + places →
          exec c s
            = .next (answer { kind := 0xE1, tag := tag, payload := [5, rq.kind] }
                (noticeCheck (beep .long (setLatch .full (atBlock tag rq s)))))))
  ∧ (∀ (tag : Byte) (s : State), Taken s → s.store.openLine.cells = [] →
      exec (.wordErase tag) s = .next (answered { kind := 0xE1, tag := tag, payload := [10, 0x05] } s)
      ∧ exec (.lineErase tag) s = .next (answered { kind := 0xE1, tag := tag, payload := [10, 0x06] } s))
  ∧ ∀ (n : Nat) (s : State),
      (removeCells n s).store.openLine.cells.map (·.seq)
        = (s.store.openLine.cells.map (·.seq)).take (s.store.openLine.cells.length - n)

/-- The removal of the last cell X of a line (R101): the word tracker is set back by the first row of Table 5-3 that applies (R107), X's job is
dealt with (R102 to R105, Table 5-1), and the OPEN line loses X with its segment brought up to date (R109): the segment of its TAB is
gone, and a segment that loses a cell has its list, its start and the width of its TAB computed again. A word that is reopened is the
open word with its generation raised by 1, 0 following 255; its letter cells are UNCHECKED, and HELD ones carry WORD while the WORD
condition holds; its check is withdrawn, a lookup under way for it becomes stale, and it leaves the flagged list (R108). -/
def Obligations.RemovalDealsWithTheJob : Prop :=
  (∀ (x : Cell) (q : Sequencer),
    (x.strikes = false → removeJob x q = q)
    ∧ (x.strikes = true → x.state = .held → removeJob x q = q)
    ∧ (x.strikes = true → x.state = .printed → (∀ i ∈ x.impressions, i.made = false) → removeJob x q = q)
    ∧ (x.strikes = true → x.state = .printed → (∃ i ∈ x.impressions, i.made = true) →
        removeJob x q
          = { q with
              jobs := q.jobs
                ++ [{ kind := .lift (x.position.getD 0) (x.impressions.filter (·.made)) false 0, marked := false }] })
    ∧ (x.strikes = true → x.state = .queued → strikeInFlight q x.seq = false →
        removeJob x q = { q with jobs := q.jobs.filter fun j => j.kind != .strike (.cell x.seq) })
    ∧ (x.strikes = true → (x.state = .striking ∨ x.state = .queued ∧ strikeInFlight q x.seq = true) →
        removeJob x q
          = { q with
              jobs :=
                (q.jobs.map fun j =>
                  if j.kind = .strike (.cell x.seq) then
                    { j with kind := .strike (.detached (x.position.getD 0) x.impressions) }
                  else j)
                ++ [{ kind := .lift (x.position.getD 0) (x.impressions.filter (·.made)) true 0, marked := false }] }))
  ∧ (∀ (x : Cell) (before : List Cell) (s : State) (done : State → State), s.store.openLine.cells = before ++ [x] →
      (∀ u, done u = { u with seq := removeJob x s.seq, store := { u.store with openLine := dropLast x u.store.openLine } }) →
      (s.store.pendingApostrophe = some x.seq →
        removeLast s = done { s with store := { s.store with pendingApostrophe := none } })
      ∧ (s.store.pendingApostrophe ≠ some x.seq →
          (∀ w, x.word = some w → s.store.openWord = some w →
            ((∃ c ∈ before, c.word = some w) → removeLast s = done s)
            ∧ ((∀ c ∈ before, c.word ≠ some w) → removeLast s = done { s with store := { s.store with openWord := none } }))
          ∧ ((x.word = none ∨ x.word ≠ s.store.openWord) →
              (before = [] → removeLast s = done s)
              ∧ (∀ front c w, before = front ++ [c] → c.word = some w →
                  ∃ u, u = reopenWord w s ∧ removeLast s = done { u with store := { u.store with pendingApostrophe := none } })
              ∧ (∀ front d c w, before = front ++ [d, c] → c.word = none → c.kind = .glyph → c.code = 39 → d.word = some w →
                  ∃ u, u = reopenWord w s
                    ∧ removeLast s = done { u with store := { u.store with pendingApostrophe := some c.seq } })
              ∧ (∀ front c, before = front ++ [c] → c.word = none →
                  (c.kind ≠ .glyph ∨ c.code ≠ 39 ∨ front = [] ∨ ∃ d, front.getLast? = some d ∧ d.word = none) →
                  removeLast s = done s))))
  ∧ (∀ (w v : WordRef) (hold : Bool) (s : State), v = { number := w.number, generation := (w.generation + 1) % 256 } →
      hold = (s.store.settings.releaseMode == .word && s.spell.enabled && s.spell.availability != .unavailable) →
      reopenWord w s
        = { s with
            store :=
              { s.store.mapCells (fun c =>
                  if c.word = some w then
                    { c with
                      word := some v, mark := some .unchecked
                      holds := if hold = true ∧ c.state = .held then { c.holds with word := true } else c.holds }
                  else c) with
                openWord := some v }
            spell :=
              { s.spell with
                queue := s.spell.queue.filter fun q => q.word.number != w.number
                lookup :=
                  if ∃ q ∈ s.spell.queue, q.word.number = w.number ∧ q.reading = true then
                    s.spell.lookup.map fun k => { k with stale := true }
                  else s.spell.lookup
                flagged := s.spell.flagged.filter fun f => f.word.number != w.number } })
  ∧ ∀ (x : Cell) (before : List Cell) (l : Line), l.cells = before ++ [x] →
      (l.segment = none → dropLast x l = { l with cells := before })
      ∧ ∀ g, l.segment = some g →
          (g.tab = x.seq → dropLast x l = { l with cells := before, segment := none })
          ∧ ∀ h, h = { g with cells := g.cells.filter fun n => n != x.seq } → g.tab ≠ x.seq →
              dropLast x l
                = { l with
                    cells := before.map fun c =>
                      if c.seq = g.tab then { c with width := startOf h (widthIn h before) - g.point } else c
                    segment := some h }

/-- CORRECT on an empty OPEN line (R100, R106, R113 to R117): without a line before that may be reached it is refused NOTHING; otherwise it
crosses back: the line before, its return removed, is the OPEN line, no line is reachable, the window starts at 0. A PRINTED return
appends a CROSS to the line's typing point; so does one whose FEED is in flight, and that FEED loses its link; both are refused FULL
with a full queue. A QUEUED return whose FEED has not started has it withdrawn, a HELD return touches no job. A line that is not
FLUSH_LEFT and was not released waits for its close again; one with a released cell becomes FLUSH_LEFT, its released cells where they are and
the HELD ones behind them edge to edge from the end of the last one's escapement, its gap extra counted (R117, log 18). The word tracker is
set back by Table 5-3 (R107): with a letter cell just before the return its word is reopened and no apostrophe is pending; with an apostrophe
and a letter cell before it the word is reopened and the apostrophe pending; otherwise nothing changes. -/
def Obligations.CorrectCrossesBack : Prop :=
  (∀ (tag : Byte) (s : State), Taken s → s.store.openLine.cells = [] →
    ((s.store.earlier = [] ∨ ∃ ls l, s.store.earlier = ls ++ [l] ∧ l.reach = false) →
      exec (.correct tag) s = .next (answered { kind := 0xE1, tag := tag, payload := [10, 0x04] } s))
    ∧ ∀ ls l body r, s.store.earlier = ls ++ [l] → l.reach = true → l.cells = body ++ [r] →
        ((r.state = .printed ∨ feedInFlight s.seq r.seq = true) → 256 ≤ s.seq.jobs.length →
          exec (.correct tag) s
            = .next (answer { kind := 0xE1, tag := tag, payload := [5, 0x04] }
                (noticeCheck (beep .long (setLatch .full (atBlock tag .correct s))))))
        ∧ (¬((r.state = .printed ∨ feedInFlight s.seq r.seq = true) ∧ 256 ≤ s.seq.jobs.length) →
            ∃ t, t = eventEnd s.store.unprinted (crossBack l r (atBlock tag .correct s))
              ∧ exec (.correct tag) s
                = .next (answer
                    { kind := 0x84, tag := tag, payload := (
                        [1, 0, if r.state = .printed ∨ feedInFlight s.seq r.seq = true then 3 else 2]
                          ++ bytes16 t.store.freeCells ++ [BitVec.ofNat 8 t.store.unprinted]
                          ++ bytes16 (256 - t.seq.jobs.length)) } t)))
  ∧ (∀ (s : State) (ls : List Line) (l : Line) (body : List Cell) (r : Cell), s.store.earlier = ls ++ [l] →
      l.cells = body ++ [r] →
      ∀ t cross, t = crossBack l r s →
        cross = { kind := .cross l.spacing t.store.openLine.typingPoint 0 0, marked := false } →
        t.store.openLine.state = .opened ∧ t.store.openLine.reach = false ∧ t.store.openLine.segment = none
        ∧ t.store.openLine.placement = none ∧ t.store.openLine.cells.map (·.seq) = body.map (·.seq)
        ∧ t.store.openLine.left = l.left ∧ t.store.openLine.right = l.right ∧ t.store.openLine.spacing = l.spacing
        ∧ t.store.openLine.bellRung = l.bellRung
        ∧ (∀ x ∈ t.store.earlier, x.reach = false) ∧ t.store.earlier.length = ls.length ∧ t.disp.winStart = 0
        ∧ (feedInFlight s.seq r.seq = true →
            t.seq = { s.seq with jobs := s.seq.jobs.map (unlinked r.seq) ++ [cross] })
        ∧ (feedInFlight s.seq r.seq = false → r.state ≠ .printed →
            t.seq = { s.seq with jobs := s.seq.jobs.filter fun j => !feedOf r.seq j.kind })
        ∧ (feedInFlight s.seq r.seq = false → r.state = .printed →
            t.seq = { s.seq with jobs := (s.seq.jobs.filter fun j => !feedOf r.seq j.kind) ++ [cross] })
        ∧ (r.state = .held → (∀ j ∈ s.seq.jobs, feedOf r.seq j.kind = false) → t.seq = s.seq)
        ∧ (l.alignment = .flushLeft →
            t.store.openLine.alignment = .flushLeft
            ∧ t.store.openLine.cells.map (fun c => (c.position, c.state)) = body.map (fun c => (c.position, c.state)))
        ∧ (l.alignment ≠ .flushLeft → (∃ c ∈ body, c.state ≠ .held) →
            t.store.openLine.alignment = .flushLeft
            ∧ ∀ (i : Nat) (c : Cell), body[i]? = some c → c.state ≠ .held →
                (t.store.openLine.cells[i]?).map (·.position) = some c.position)
        ∧ (l.alignment ≠ .flushLeft → (∀ c ∈ body, c.state = .held) →
            t.store.openLine.alignment = l.alignment
            ∧ (r.state = .held → ∀ c ∈ t.store.openLine.cells, c.position = none ∧ c.holds.line = true)))
  ∧ (∀ (s t : State) (l : Line) (body pre post : List Cell) (r y : Cell),
      l.cells = body ++ [r] → r.isReturn = true → t = crossBack l r s → l.alignment ≠ .flushLeft →
      body = pre ++ y :: post → y.state ≠ .held → y.isReturn = false → (∀ x ∈ post, x.state = .held) →
      ∀ (i : Nat) (x : Cell), post[i]? = some x →
        (t.store.openLine.cells[pre.length + 1 + i]?).map (·.position)
          = some (some (y.position.getD l.left + y.width + gapExtra { l with cells := body } pre.length
              + cellsWidth ((pre.filter fun z => z.state == .held) ++ post.take i))))
  ∧ ∀ (s base t u : State) (ls : List Line) (l : Line) (body : List Cell) (r : Cell),
      s.store.earlier = ls ++ [l] → l.cells = body ++ [r] → t = crossBack l r s →
      base = { s with store := { s.store with earlier := ls.map fun x => { x with reach := false }, openLine := l } } →
      r.word = none → s.store.pendingApostrophe ≠ some r.seq →
      ((∃ front c w v, body = front ++ [c] ∧ c.word = some w ∧ v = reopenWord w base
          ∧ u = { v with store := { v.store with pendingApostrophe := none } })
        ∨ (∃ front d w c v, body = front ++ [d, c] ∧ c.word = none ∧ c.kind = .glyph ∧ c.code = 39 ∧ d.word = some w
            ∧ v = reopenWord w base ∧ u = { v with store := { v.store with pendingApostrophe := some c.seq } })
        ∨ (u = base ∧ (∀ front c, body = front ++ [c] → c.word = none)
            ∧ ∀ front d c, body = front ++ [d, c] → d.word = none ∨ c.kind ≠ .glyph ∨ c.code ≠ 39)) →
      t.spell = u.spell ∧ t.store.openWord = u.store.openWord
      ∧ t.store.pendingApostrophe = u.store.pendingApostrophe
      ∧ t.store.openLine.cells.map (fun c => (c.word, c.mark))
        = u.store.openLine.cells.dropLast.map fun c => (c.word, c.mark)

/-- The cells that WORD-ERASE takes (R110): the trailing spaces, then the TAB before them alone, or the run before them back to a SPACE, a
TAB or the start of the line; a line of spaces is taken whole. -/
def Obligations.WordEraseTakesTheLastWord : Prop :=
  ∀ (rest run spaces : List Cell), (∀ c ∈ spaces, c.kind = .space) →
    wordEraseCount spaces.reverse = spaces.length
    ∧ (∀ tab : Cell, tab.kind = .tab → wordEraseCount (rest ++ [tab] ++ spaces).reverse = spaces.length + 1)
    ∧ (run ≠ [] → (∀ c ∈ run, c.kind ≠ .space ∧ c.kind ≠ .tab) →
        (rest = [] ∨ ∃ r b, rest = r ++ [b] ∧ (b.kind = .space ∨ b.kind = .tab)) →
        wordEraseCount (rest ++ run ++ spaces).reverse = run.length + spaces.length)

/-! ### Spelling and the host's decisions -/

/-- SPELL-ACCEPT and SPELL-ADD (R133, R134, R135a, R136): the oldest flagged word's letter cells become ACCEPTED without WORD holds and the
word leaves the flagged list; SPELL-ADD also inserts it in the sorted user list and queues a list save, is answered DUPLICATE for a
word already there, and refused LIST_FULL with 40 words; without a flagged word both are refused NOT_HELD. -/
def Obligations.SpellAcceptAndAdd : Prop :=
  (∀ (tag : Byte) (s : State), Taken s → s.spell.flagged = [] →
    exec (.spellAccept tag) s = .next (answered { kind := 0xE1, tag := tag, payload := [12, 0x0E] } s)
    ∧ exec (.spellAdd tag) s = .next (answered { kind := 0xE1, tag := tag, payload := [12, 0x0F] } s))
  ∧ (∀ (tag : Byte) (f : Flagged) (fs left : List Flagged) (store : LineStore) (s : State), Taken s →
      s.spell.flagged = f :: fs → left = (f :: fs).filter (fun g => g.word != f.word) →
      store = s.store.mapCells (fun c =>
        if c.word = some f.word then { c with mark := some .accepted, holds := { c.holds with word := false } } else c) →
      exec (.spellAccept tag) s
        = .next (answer
            { kind := 0x8E, tag := tag, payload := BitVec.ofNat 8 left.length :: wordBytes f.letters }
            (eventEnd s.store.unprinted
              { atBlock tag .spellAccept s with store := store, spell := { s.spell with flagged := left } }))
      ∧ (f.letters ∈ s.spell.userList →
          exec (.spellAdd tag) s
            = .next (answer
                { kind := 0xE1, tag := tag, payload := [14, 0x0F, 1, BitVec.ofNat 8 left.length] }
                (eventEnd s.store.unprinted
                  { atBlock tag .spellAdd s with store := store, spell := { s.spell with flagged := left } })))
      ∧ (f.letters ∉ s.spell.userList → 40 ≤ s.spell.userList.length →
          exec (.spellAdd tag) s = .next (answered { kind := 0xE1, tag := tag, payload := [13, 0x0F] } s))
      ∧ (f.letters ∉ s.spell.userList → s.spell.userList.length < 40 →
          exec (.spellAdd tag) s
            = .next (answer
                { kind := 0x8F, tag := tag, payload := (
                    [BitVec.ofNat 8 left.length, BitVec.ofNat 8 (s.spell.userList.length + 1)] ++ wordBytes f.letters) }
                (eventEnd s.store.unprinted
                  { atBlock tag .spellAdd s with
                    store := store
                    spell := { s.spell with flagged := left, userList := insertWord f.letters s.spell.userList }
                    mem :=
                      { s.mem with
                        nv := if .saveList none ∈ s.mem.nv then s.mem.nv else s.mem.nv ++ [.saveList none] } }))))
  ∧ ∀ (w : List Nat) (ws : List (List Nat)), w ∉ ws → wordsSorted ws = true →
      wordsSorted (insertWord w ws) = true ∧ ∀ x, x ∈ insertWord w ws ↔ x = w ∨ x ∈ ws

/-- USER-WORD-DELETE and USER-WORD-READ (R135): a word of 2 to 24 letter codes or apostrophes is folded and taken out of the user list, a
list save is queued and the new word count answered; a word not in the list is NOT_FOUND, any other payload BAD_VALUE. Word n of the list
is read with the word count, an n not below the count is NOT_FOUND and one above 39 BAD_VALUE. -/
def Obligations.UserWordsDeletedAndRead : Prop :=
  (∀ (tag : Byte) (codes : List Byte) (s : State), Taken s →
     ((codes.length < 2 ∨ 24 < codes.length ∨ ∃ c ∈ codes, isLetterCode c.toNat = false ∧ c.toNat ≠ 39) →
       exec (.userWordDelete tag codes) s = .next (answered { kind := 0xE1, tag := tag, payload := [3, 0x11] } s))
     ∧ (2 ≤ codes.length → codes.length ≤ 24 → (∀ c ∈ codes, isLetterCode c.toNat = true ∨ c.toNat = 39) →
         ∀ w, w = codes.map (fun c => foldCode c.toNat) →
           (w ∉ s.spell.userList →
             exec (.userWordDelete tag codes) s = .next (answered { kind := 0xE1, tag := tag, payload := [15, 0x11] } s))
           ∧ (w ∈ s.spell.userList →
               exec (.userWordDelete tag codes) s
                 = .next (answer
                     { kind := 0x91, tag := tag, payload :=
                         [BitVec.ofNat 8 (s.spell.userList.filter (fun x => x != w)).length] }
                     (eventEnd s.store.unprinted
                       { atBlock tag (.userWordDelete codes) s with
                         spell := { s.spell with userList := s.spell.userList.filter (fun x => x != w) }
                         mem :=
                           { s.mem with
                             nv := if .saveList none ∈ s.mem.nv then s.mem.nv else s.mem.nv ++ [.saveList none] } })))))
  ∧ ∀ (tag n : Byte) (s : State), Taken s →
    (∀ w, n.toNat ≤ 39 → s.spell.userList[n.toNat]? = some w →
        exec (.userWordRead tag n) s
          = .next (answered { kind := 0x90, tag := tag, payload := (
              [BitVec.ofNat 8 s.spell.userList.length, BitVec.ofNat 8 w.length] ++ w.map unfoldValue) } s))
    ∧ (n.toNat ≤ 39 → s.spell.userList.length ≤ n.toNat →
        exec (.userWordRead tag n) s = .next (answered { kind := 0xE1, tag := tag, payload := [15, 0x10] } s))
    ∧ (39 < n.toNat →
        exec (.userWordRead tag n) s = .next (answered { kind := 0xE1, tag := tag, payload := [3, 0x10] } s))

/-- WHEEL-ASSIGN (R147, R148): taken in WHEEL_WAIT with decision NONE, refused NOT_WAITING in another state and BUSY with decision LOADING;
an ID above 31 is BAD_VALUE, one without a source NOT_FOUND; the active table's own ID ends WHEEL_WAIT with the hub bound, a ROM table
is loaded with decision LOADING, and ID 0 without a ROM table selects the built-in table, which waits with decision LOADING while a load
is in progress (R143; the model's choice, log 44). That the state is looked at before the ID is the model's reading (log 13). -/
def Obligations.WheelAssignFitsTheTable : Prop :=
  ∀ (tag id : Byte) (s : State), Taken s →
    (s.seq.mech ≠ .wheelWait →
      exec (.wheelAssign tag id) s = .next (answered { kind := 0xE1, tag := tag, payload := [16, 0x13] } s))
    ∧ ∀ w, s.seq.mech = .wheelWait → s.mem.wait = some w →
        (w.decision ≠ none →
          exec (.wheelAssign tag id) s = .next (answered { kind := 0xE1, tag := tag, payload := [4, 0x13] } s))
        ∧ (w.decision = none → 31 < id.toNat →
            exec (.wheelAssign tag id) s = .next (answered { kind := 0xE1, tag := tag, payload := [3, 0x13] } s))
        ∧ (w.decision = none → id.toNat ≤ 31 → romLists s.mem.header id.toNat = false → id ≠ 0 →
            exec (.wheelAssign tag id) s = .next (answered { kind := 0xE1, tag := tag, payload := [15, 0x13] } s))
        ∧ (w.decision = none → id.toNat ≤ 31 → (romLists s.mem.header id.toNat = true ∨ id = 0) →
            ∀ a, a = answered { kind := 0x93, tag := tag, payload := [] } s →
              (s.mem.active.id = id.toNat →
                exec (.wheelAssign tag id) s
                  = .next (eventEnd s.store.unprinted
                      (homingOver { a with mem := { s.mem with boundId := w.hub, wait := none } })))
              ∧ (s.mem.active.id ≠ id.toNat → romLists s.mem.header id.toNat = true →
                  exec (.wheelAssign tag id) s
                    = .next (eventEnd s.store.unprinted
                        { a with
                          mem :=
                            { s.mem with
                              wait :=
                                some { w with
                                  decision := some { id := id.toNat, assignHub := some w.hub, homing := false } }
                              loadWaiting :=
                                if s.mem.loadBusy then s.mem.loadWaiting
                                else some { id := id.toNat, assignHub := some w.hub, homing := false } } }))
              ∧ (s.mem.active.id ≠ id.toNat → romLists s.mem.header id.toNat = false → s.mem.loadBusy = true →
                  exec (.wheelAssign tag id) s
                    = .next (eventEnd s.store.unprinted
                        { a with
                          mem :=
                            { s.mem with
                              wait :=
                                some { w with
                                  decision := some { id := id.toNat, assignHub := some w.hub, homing := false } } } }))
              ∧ (s.mem.active.id ≠ id.toNat → romLists s.mem.header id.toNat = false → s.mem.loadBusy = false →
                  ∃ u, u = replaceTable builtInTable (setLatch .wheelChanged a)
                    ∧ exec (.wheelAssign tag id) s
                      = .next (eventEnd s.store.unprinted
                          (homingOver { u with mem := { u.mem with boundId := w.hub, wait := none } }))))

/-- DISCARD (R147, R149): refused like WHEEL-ASSIGN outside its state; otherwise every non-return cell from the oldest cell not PRINTED on
is removed, PRINTED spaces and tabs among them, and every cell before that one and every return stays as it is (but for spelling and the
TAB of an open segment). The STRIKE jobs of the removed cells and a detached STRIKE leave the queue, a pending LIFT is fixed, every other
job keeps its place. The open word is dropped without a hand-off, the removed words leave the checker. The reply counts the cells removed
and the jobs by which the queue has become shorter, and the mounted wheel is fitted as by RESUME. After the removal the unprinted count is
0. The mounted wheel's table is loaded from a ROM that lists its ID, with decision LOADING; without a source the wait takes reason UNKNOWN and
decision NONE with WHEEL_UNKNOWN; the built-in table for ID 0 ends the wait at once, or waits with decision LOADING while a load is in
progress (log 44). The removal and the fitting are two events, with the reply between
them (the model's choice, log 53). The width of the two counts is the model's (log 14), and so is that the state is looked at first (log 13). -/
def Obligations.DiscardRemovesUnprintedText : Prop :=
  (∀ (tag : Byte) (s : State), Taken s →
    (s.seq.mech ≠ .wheelWait →
      exec (.discard tag) s = .next (answered { kind := 0xE1, tag := tag, payload := [16, 0x15] } s))
    ∧ ∀ w, s.seq.mech = .wheelWait → s.mem.wait = some w →
        (w.decision ≠ none →
          exec (.discard tag) s = .next (answered { kind := 0xE1, tag := tag, payload := [4, 0x15] } s))
        ∧ (w.decision = none →
            ∃ t cells jobs, discardText (atBlock tag .discard s) = (t, cells, jobs)
              ∧ exec (.discard tag) s
                = .next (fitMounted w.hub
                    (answer { kind := 0x95, tag := tag, payload := bytes16 cells ++ [BitVec.ofNat 8 jobs] }
                      (eventEnd s.store.unprinted t)))))
  ∧ (∀ (s t : State) (cells jobs : Nat) (before rest removed : List Cell), discardText s = (t, cells, jobs) →
      s.store.cells = before ++ rest → (∀ c ∈ before, c.state = .printed) →
      (rest = [] ∨ ∃ c cs, rest = c :: cs ∧ c.state ≠ .printed) →
      removed = rest.filter (fun c => !c.isReturn) →
      t.store.unprinted = 0
      ∧ t.store.cells.map (fun c => { c.besides none with width := 0 })
        = (before ++ rest.filter Cell.isReturn).map (fun c => { c.besides none with width := 0 })
      ∧ (s.store.openLine.segment = none →
          t.store.cells.map (Cell.besides none) = (before ++ rest.filter Cell.isReturn).map (Cell.besides none))
      ∧ cells = removed.length
      ∧ t.store.earlier.map (fun l => { l with cells := [] }) = s.store.earlier.map (fun l => { l with cells := [] })
      ∧ { t.store.openLine with cells := [], segment := none } = { s.store.openLine with cells := [], segment := none }
      ∧ t.store.openLine.segment
        = (match s.store.openLine.segment with
          | none => none
          | some g =>
            if removed.any (fun c => c.seq == g.tab) then none
            else some { g with cells := g.cells.filter fun n => !removed.any fun c => c.seq == n })
      ∧ t.seq.jobs = (s.seq.jobs.filter fun j => !strikesRemoved removed j.kind).filterMap fixedLift
      ∧ jobs = s.seq.jobs.length - t.seq.jobs.length
      ∧ (∀ j js, s.seq.jobs = j :: js → t.seq.inFlight = (s.seq.inFlight && !strikesRemoved removed j.kind))
      ∧ t.store.openWord = none ∧ t.store.pendingApostrophe = none
      ∧ (∀ w, s.store.openWord = some w → ∀ c ∈ t.store.cells, c.word = some w → c.mark = some .skip)
      ∧ (∀ c ∈ removed, ∀ w, c.word = some w →
          (∀ q ∈ t.spell.queue, q.word.number ≠ w.number) ∧ ∀ f ∈ t.spell.flagged, f.word.number ≠ w.number)
      ∧ t.spell.userList = s.spell.userList ∧ t.mem = s.mem ∧ t.link = s.link)
  ∧ ∀ (hub : Nat) (w : WaitRecord) (s : State) (load : LoadRequest), s.mem.wait = some w →
      load = { id := hub, assignHub := none, homing := false } →
      (romLists s.mem.header hub = true →
        fitMounted hub s
          = eventEnd s.store.unprinted
              { s with
                mem :=
                  { s.mem with
                    wait := some { w with decision := some load }
                    loadWaiting := if s.mem.loadBusy then s.mem.loadWaiting else some load } })
      ∧ (romLists s.mem.header hub = false → hub ≠ 0 →
          fitMounted hub s
            = eventEnd s.store.unprinted
                (setLatch .wheelUnknown
                  { s with mem := { s.mem with wait := some { w with reason := .unknown, decision := none } } }))
      ∧ (romLists s.mem.header hub = false → hub = 0 →
          (s.mem.active = builtInTable →
            fitMounted hub s
              = eventEnd s.store.unprinted (homingOver { s with mem := { s.mem with boundId := 0, wait := none } }))
          ∧ (s.mem.active ≠ builtInTable → s.mem.loadBusy = true →
              fitMounted hub s
                = eventEnd s.store.unprinted { s with mem := { s.mem with wait := some { w with decision := some load } } })
          ∧ (s.mem.active ≠ builtInTable → s.mem.loadBusy = false →
              ∃ u, u = replaceTable builtInTable (setLatch .wheelChanged s)
                ∧ fitMounted hub s
                  = eventEnd s.store.unprinted (homingOver { u with mem := { u.mem with boundId := 0, wait := none } })))

/-- RECOVER (R88): in FAULT it is acknowledged and full homing begins, or the state becomes INTERLOCKED with the cover open; in any other
state it is refused NOT_WAITING and changes nothing. -/
def Obligations.RecoverOnlyInFault : Prop :=
  ∀ (tag : Byte) (s a : State), Taken s → a = answered { kind := 0x96, tag := tag, payload := [] } s →
    (s.seq.mech = .fault → s.mon.levels.cover = true →
      exec (.recover tag) s = .next (eventEnd s.store.unprinted (beginHoming true a)))
    ∧ (s.seq.mech = .fault → s.mon.levels.cover = false →
        exec (.recover tag) s
          = .next (eventEnd s.store.unprinted { a with seq := { s.seq with mech := .interlocked } }))
    ∧ (s.seq.mech ≠ .fault →
        exec (.recover tag) s = .next (answered { kind := 0xE1, tag := tag, payload := [16, 0x16] } s))
    ∧ (beginHoming true a).seq.mech = .homing ∧ (beginHoming true a).seq.jobs = s.seq.jobs
    ∧ (beginHoming true a).seq.inFlight = s.seq.inFlight

/-! ### Overlay, events, sensors, lamps, beeper -/

/-- DISPLAY-OVERLAY, DISPLAY-RELEASE and the overlay time-out (R165, R166): codes are written into a frame of 40 spaces or into the overlay
shown, the timer starts anew or stays stopped for a timeout of 0; an overlay ends at a release, which says whether one was shown, and
at its timer's expiry; a time-out without a running timer changes nothing (log 4). The frame follows and the dirty flag with it (R158,
R163): in ON the overlay's codes while one is shown, otherwise the window of the OPEN line in positions 1 to 32 and the status field in
positions 33 to 40 (R160, R161); in STARTING and OFF the frame stays. The column number counts pitch widths of the table in force, or 12
units on a PS wheel, from the left margin, between 1 and 999 (R48). -/
def Obligations.OverlayShowsAndEnds : Prop :=
  (∀ (tag o p : Byte) (codes : List Byte) (s : State), Taken s →
    ((25 < o.toNat ∨ p.toNat = 0 ∨ 40 < p.toNat ∨ (∃ c ∈ codes, c.toNat < 32) ∨ 40 < p.toNat + codes.length - 1) →
      exec (.displayOverlay tag o p codes) s = .next (answered { kind := 0xE1, tag := tag, payload := [3, 0x17] } s))
    ∧ (o.toNat ≤ 25 → 1 ≤ p.toNat → p.toNat ≤ 40 → (∀ c ∈ codes, 32 ≤ c.toNat) → p.toNat + codes.length ≤ 41 →
        (p ≠ 1 → s.disp.overlay = none →
          exec (.displayOverlay tag o p codes) s = .next (answered { kind := 0xE1, tag := tag, payload := [10, 0x17] } s))
        ∧ ∀ base, (p = 1 ∧ base = List.replicate 40 32 ∨ p ≠ 1 ∧ s.disp.overlay = some base) →
            exec (.displayOverlay tag o p codes) s
              = .next (answered { kind := 0x97, tag := tag, payload := [] }
                  (refreshDisplay { s with
                    disp :=
                      { s.disp with
                        overlay := some (base.take (p.toNat - 1) ++ codes.map BitVec.toNat
                          ++ base.drop (p.toNat - 1 + codes.length))
                        overlayTimer := if o.toNat = 0 then none else some o.toNat } })))
    ∧ (s.disp.overlay = none →
        exec (.displayRelease tag) s = .next (answered { kind := 0x98, tag := tag, payload := [0] } s))
    ∧ (s.disp.overlay ≠ none →
        exec (.displayRelease tag) s
          = .next (answered { kind := 0x98, tag := tag, payload := [1] }
              (refreshDisplay { s with disp := { s.disp with overlay := none, overlayTimer := none } }))))
  ∧ (∀ (t : WheelTable) (l : Line) (c : Nat), c = (match t.kind with | .p10 => 12 | .p12 => 10 | .p15 => 8 | .ps => 12) →
      (l.typingPoint ≤ l.left → columnNumber t l = 1)
      ∧ (∀ k, l.left ≤ l.typingPoint → k * c ≤ l.typingPoint - l.left → l.typingPoint - l.left < (k + 1) * c →
          columnNumber t l = min 999 (k + 1)))
  ∧ (∀ u : State,
      (u.disp.overlayTimer ≠ none →
        exec .overlayTimeout u
          = .next (refreshDisplay { u with disp := { u.disp with overlay := none, overlayTimer := none } }))
      ∧ (u.disp.overlayTimer = none → exec .overlayTimeout u = .next u))
  ∧ ∀ (u : State) (cells : List Cell) (start n : Nat) (f : List DisplayCell) (plain : Nat → DisplayCell),
      cells = u.store.openLine.cells → start = windowStart cells.length u.disp.winStart →
      n = columnNumber (tableInForce u) u.store.openLine → f = (refreshDisplay u).disp.frame →
      (∀ code, plain code = { code := code, underbar := false }) →
      refreshDisplay u
        = { u with
            disp := { u.disp with winStart := start, frame := f, dirty := u.disp.dirty || decide (f ≠ u.disp.frame) } }
      ∧ (u.disp.state ≠ .on → f = u.disp.frame)
      ∧ (∀ codes, u.disp.state = .on → u.disp.overlay = some codes → f = codes.map plain)
      ∧ (u.disp.state = .on → u.disp.overlay = none →
          (∀ i c, i < 32 → cells[start + i]? = some c →
            f[i]?
              = some
                  { code :=
                      (match c.kind with
                      | .glyph => if c.mark = some .miss ∧ u.disp.blinkOn = false then 32 else c.code
                      | .tab => 128
                      | .space | .ret | .paraRet => 32)
                    underbar := decide (c.state ≠ .printed) })
          ∧ (∀ i, i < 32 → start + i = cells.length → f[i]? = some (plain (if u.disp.blinkOn then 129 else 32)))
          ∧ (∀ i, i < 32 → cells.length < start + i → f[i]? = some (plain 32))
          ∧ f.drop 32
            = [ plain (if n < 100 then 32 else 48 + n / 100), plain (if n < 10 then 32 else 48 + n / 10 % 10), plain (48 + n % 10)
              , plain (match u.store.openLine.alignment with
                  | .flushLeft => 76 | .center => 67 | .flushRight => 82 | .justify => 74)
              , plain (match u.store.settings.releaseMode with | .direct => 68 | .word => 87)
              , plain (if u.spell.enabled = false then 32 else if u.spell.availability = .unavailable then 63 else 83)
              , plain (match u.seq.mech with
                  | .ready | .busy | .standby => 32 | .fault => 33 | .interlocked => 35 | .wheelWait => 87
                  | .suspended => 80 | .off | .homing => 72)
              , plain (if 112 ≤ u.store.unprinted then 62 else 32) ])

/-- EVENTS-READ, EVENTS-CLEAR and EVENT-MASK (R174): a read answers the group's latches and masks and changes nothing; the named latches
are cleared, or the group's masks replaced whole; the pending set follows, a NOTICE for a group that a mask change made pending joins
the output queue before the reply when a place is free, and the reply carries the group and the pending set; an unknown group is
refused BAD_VALUE with no change. -/
def Obligations.EventRequestsReadClearAndMask : Prop :=
  ∀ (tag n : Byte) (h : Half) (s : State), Taken s → PendingUpToDate s →
    (4 < n.toNat →
      exec (.eventsRead tag n) s = .next (answered { kind := 0xE1, tag := tag, payload := [3, 0x19] } s)
      ∧ exec (.eventsClear tag n h) s = .next (answered { kind := 0xE1, tag := tag, payload := [3, 0x1A] } s)
      ∧ exec (.eventMask tag n h) s = .next (answered { kind := 0xE1, tag := tag, payload := [3, 0x1B] } s))
    ∧ ∀ g, groupOfByte n = some g →
        exec (.eventsRead tag n) s
          = .next (answered { kind := 0x99, tag := tag, payload :=
              [n, lowByte (s.mon.latches.get g), highByte (s.mon.latches.get g), lowByte (s.mon.masks.get g)
              , highByte (s.mon.masks.get g)] } s)
        ∧ (∀ x p, x = s.mon.latches.get g &&& ~~~h → p = pendingOf (s.mon.latches.set x g) s.mon.masks →
          exec (.eventsClear tag n h) s
            = .next (answered
                { kind := 0x9A, tag := tag, payload := [n, lowByte x, highByte x, p.byte] }
                { s with mon := { s.mon with latches := s.mon.latches.set x g, pendingSet := p } }))
        ∧ (∀ x p, x = h &&& GroupBits.all.get g → p = pendingOf s.mon.latches (s.mon.masks.set x g) →
            (s.mon.pendingSet.gained p = false ∨ freePlaces s.link ≤ 1) →
            exec (.eventMask tag n h) s
              = .next (answered
                  { kind := 0x9B, tag := tag, payload := [n, lowByte x, highByte x, p.byte] }
                  { s with mon := { s.mon with masks := s.mon.masks.set x g, pendingSet := p } }))
        ∧ (∀ x p, x = h &&& GroupBits.all.get g → p = pendingOf s.mon.latches (s.mon.masks.set x g) →
            s.mon.pendingSet.gained p = true → 2 ≤ freePlaces s.link →
            exec (.eventMask tag n h) s
              = .next (answered
                  { kind := 0x9B, tag := tag, payload := [n, lowByte x, highByte x, p.byte] }
                  { s with
                    mon := { s.mon with masks := s.mon.masks.set x g, pendingSet := p }
                    link :=
                      { s.link with output := s.link.output ++ [{ kind := 0xE0, tag := 0, payload := [p.byte] }] } }))

/-- SENSOR-CONFIG (R170): a known sensor and edge select and two yes/no bytes replace the sensor's configuration, and the reply carries its
level; anything else is refused BAD_VALUE. LAMP (R178): the assignment first, an automatic line then driven by its function, then the
level on a HOST line; the reply says whether a level was applied; a line above 3 or a value outside those defined is BAD_VALUE. At the end of
every event an automatic line shows its function: the state FAULT, a flagged word, an unprinted count of 112 or more, STANDBY; a HOST line
keeps its level (R177, Table 9-6). -/
def Obligations.SensorConfigAndLamp : Prop :=
  (∀ (tag n e c w : Byte) (s : State), Taken s →
    ((5 < n.toNat ∨ 2 < e.toNat ∨ 1 < c.toNat ∨ 1 < w.toNat) →
      exec (.sensorConfig tag n e c w) s = .next (answered { kind := 0xE1, tag := tag, payload := [3, 0x1C] } s))
    ∧ ∀ sensor edge, sensorOfByte n = some sensor → edgeOfNat e.toNat = some edge → c.toNat ≤ 1 → w.toNat ≤ 1 →
        exec (.sensorConfig tag n e c w) s
          = .next (answered
              { kind := 0x9C, tag := tag, payload := [if sensorLevel s.mon.levels sensor then 1 else 0] }
              { s with
                mon :=
                  { s.mon with
                    config := s.mon.config.set { edge := edge, change := c == 1, wake := w == 1 } sensor } }))
  ∧ (∀ (tag n : Byte) (assignment level : Option Byte) (s : State), Taken s → s.mon.lamps.length = 4 →
      ((3 < n.toNat ∨ (∃ a ∈ assignment, 4 < a.toNat) ∨ ∃ v ∈ level, 1 < v.toNat) →
        exec (.lamp tag n assignment level) s = .next (answered { kind := 0xE1, tag := tag, payload := [3, 0x1D] } s))
      ∧ ∀ l a d driven, s.mon.lamps[n.toNat]? = some l → (∀ b ∈ assignment, b.toNat ≤ 4) → (∀ v ∈ level, v.toNat ≤ 1) →
          a = (assignment.bind lampFunctionOfByte).getD l.assignment →
          d = (match lampValue s a with | some v => v | none => l.level) →
          driven = (match level with | some v => if a = .host then v == 1 else d | none => d) →
          exec (.lamp tag n assignment level) s
            = .next (answered
                { kind := 0x9D, tag := tag, payload :=
                    [a.byte, if driven then 1 else 0
                    , match level with | none => 2 | some _ => if a = .host then 1 else 0] }
                { s with
                  mon := { s.mon with lamps := s.mon.lamps.set n.toNat { assignment := a, level := driven } } }))
  ∧ (∀ (s : State) (l : Lamp), l.assignment = .host → driveLamp s l = l)
  ∧ ∀ (before : Nat) (s t : State), t = eventEnd before s →
      t.mon.lamps.map (·.assignment) = s.mon.lamps.map (·.assignment)
      ∧ ∀ l ∈ t.mon.lamps,
        (l.assignment = .fault → (l.level = true ↔ t.seq.mech = .fault))
        ∧ (l.assignment = .flaggedWord → (l.level = true ↔ t.spell.flagged ≠ []))
        ∧ (l.assignment = .typeAheadHigh → (l.level = true ↔ 112 ≤ t.store.unprinted))
        ∧ (l.assignment = .standby → (l.level = true ↔ t.mon.power = .standby))

/-- BEEP and the beeper timer (R176, Table 9-5): an enabled beeper starts the pattern at its first tone, a disabled one stays silent, and
the reply says which; each expiry turns a tone with tones left to a gap, a gap to the next tone, and the last tone to silence. -/
def Obligations.BeeperPlaysItsPattern : Prop :=
  (∀ (tag n : Byte) (s : State), Taken s →
    (3 < n.toNat → exec (.beep tag n) s = .next (answered { kind := 0xE1, tag := tag, payload := [3, 0x1E] } s))
    ∧ ∀ p tone tones,
        (n = 0 ∧ p = .short ∧ tone = 50 ∧ tones = 1 ∨ n = 1 ∧ p = .double ∧ tone = 100 ∧ tones = 2
          ∨ n = 2 ∧ p = .long ∧ tone = 500 ∧ tones = 1 ∨ n = 3 ∧ p = .triple ∧ tone = 150 ∧ tones = 3) →
        (s.mon.beeperEnable = true →
          exec (.beep tag n) s
            = .next (answered { kind := 0x9E, tag := tag, payload := [1] }
                { s with
                  mon :=
                    { s.mon with
                      beeper := some { pattern := p, tone := true, tonesLeft := tones - 1, timer := tone } } }))
        ∧ (s.mon.beeperEnable = false →
            exec (.beep tag n) s = .next (answered { kind := 0x9E, tag := tag, payload := [0] } s)))
  ∧ ∀ s : State,
      (s.mon.beeper = none → exec .beeperTimerExpiry s = .next s)
      ∧ ∀ b, s.mon.beeper = some b →
          (b.tone = true → b.tonesLeft = 0 →
            exec .beeperTimerExpiry s = .next { s with mon := { s.mon with beeper := none } })
          ∧ (b.tone = true → 0 < b.tonesLeft →
              exec .beeperTimerExpiry s
                = .next { s with
                    mon := { s.mon with beeper := some { b with tone := false, timer := b.pattern.shape.2.1 } } })
          ∧ (b.tone = false →
              exec .beeperTimerExpiry s
                = .next { s with
                    mon :=
                      { s.mon with
                        beeper :=
                          some { b with tone := true, tonesLeft := b.tonesLeft - 1, timer := b.pattern.shape.1 } } })

/-! ### The memory link -/

/-- The end of a header read (R151, R137, R54, R138, R150, R144): a good header is copied, spelling is AVAILABLE and the WORD condition is
judged again; a bad one makes the ROM
unusable, spelling is lost and a waiting table load fails; a comparison that waited for the read is made. Without a header read in
flight, or with another number of bytes, nothing changes (the model's reading, log 4). A header is good
with its signature, a directory offset of at most 0xFFD000, no wheel ID above 31 and the part's base-letter map (R151, Table 11-7). The loss
of spelling sets DICT_FAULT, ends the lookup and, unless it was lost before, empties the check queue with SKIP for each word in it and takes
WORD from every cell that holds it; the flagged list is kept (R138). -/
def Obligations.HeaderReadEndsInTheLink : Prop :=
  (∀ (bytes : List Byte) (s : State),
    ((s.mem.busJob ≠ some .header ∨ bytes.length ≠ 200) → exec (.headerReadEnd bytes) s = .next s)
    ∧ (s.mem.busJob = some .header → bytes.length = 200 →
        ∃ x,
          exec (.headerReadEnd bytes) s
            = .next (eventEnd s.store.unprinted
                (match x.seq.mech, x.seq.homingWait with
                  | .homing, .header hub => compareWheel hub x
                  | _, _ => x))
          ∧ (∀ h, parseHeader bytes = some h →
              x = judgeWord (wordCondition s) { s with
                mem := { s.mem with header := some h, transaction := none }
                spell := { s.spell with availability := .available } })
          ∧ (parseHeader bytes = none → s.mem.loadWaiting = none →
              x = spellingLost { s with mem := { s.mem with header := none, transaction := none } })
          ∧ (∀ req lost, parseHeader bytes = none → s.mem.loadWaiting = some req →
              lost = spellingLost { s with mem := { s.mem with header := none, transaction := none } } →
              x = loadFails req { lost with mem := { lost.mem with loadWaiting := none } })))
  ∧ (∀ (bytes : List Byte) (good : Prop),
      (good ↔ bytes.take 4 = [0x4C, 0x4A, 0x44, 0x31] ∧ addressAt bytes 5 ≤ 0xFFD000
        ∧ (∀ n, n < 24 → byteAt bytes (8 + 4 * n) ≤ 31) ∧ ∀ n, n < 96 → byteAt bytes (104 + n) = baseLetter (160 + n)) →
      (¬good → parseHeader bytes = none)
      ∧ (good → parseHeader bytes
          = some
              { revision := byteAt bytes 4, directory := addressAt bytes 5
                wheels := (List.range 24).map fun n => (byteAt bytes (8 + 4 * n), addressAt bytes (9 + 4 * n)) }))
  ∧ ∀ s t : State, t = spellingLost s →
      t.mon = { s.mon with latches := s.mon.latches.withLatch .dictFault } ∧ t.spell.lookup = none
      ∧ t.mem = { s.mem with dictWaiting := false } ∧ t.spell.availability = .unavailable
      ∧ t.spell.flagged = s.spell.flagged ∧ t.spell.userList = s.spell.userList ∧ t.seq = s.seq ∧ t.link = s.link
      ∧ (s.spell.availability = .unavailable → t.spell.queue = s.spell.queue ∧ t.store = s.store)
      ∧ (s.spell.availability ≠ .unavailable → t.spell.queue = []
          ∧ t.store = s.store.mapCells fun c =>
              if ∃ q ∈ s.spell.queue, c.word = some q.word then
                { c with mark := some .skip, holds := { c.holds with word := false } }
              else if wordCondition s = true then { c with holds := { c.holds with word := false } }
              else c)

/-- The end of a table load (R145, R146, R147): a valid record revises the impression lists and replaces the active table, with the bound ID, the
provisional flag and WHEEL_CHANGED; an invalid one keeps the table with WHEEL_UNKNOWN. A homing load ends the homing or gives WHEEL_WAIT, a
decision load ends WHEEL_WAIT or leaves it UNKNOWN; in any other state the mechanism does not change. A homing that waited for another load is
compared again, a decision that waited for another load is fitted again (log 19), and a WHEEL_WAIT with decision NONE stays as it is and keeps its
table in force (logs 47, 50); in a homing before its comparison nothing follows. A WHEEL-ASSIGN load binds the hub mounted when the request was
taken, also when its wait record is gone (log 40). Fitting ends WHEEL_WAIT for the table already active or bound, asks for a ROM table with
decision LOADING, selects the built-in table once no load is in progress (log 44), or leaves the wait UNKNOWN (R148, R149a). A record is valid
with the ID asked for, one of the four kinds, no petal code 1..31, levels 1..7, PS widths 5..15 and at most 16 compositions (R145, Table 11-8;
that nothing else is checked is the model's choice, log 51). The revision reaches QUEUED and STRIKING cells and the copy of a detached STRIKE: a
made impression stays, another takes the petal and the level of its code on the new wheel, underscore for underscore, with its offset kept, or
leaves the list with NO_GLYPH (R146). -/
def Obligations.TableLoadReplacesOrKeeps : Prop :=
  (∀ (bytes : List Byte) (req : LoadRequest) (s a b : State), s.mem.busJob = some (.load req) → bytes.length = 353 →
    (∀ t, parseTable req.id bytes = some t →
      b = replaceTable t { s with mem := { s.mem with transaction := none } } →
      a = setLatch .wheelChanged
        { b with mem := { b.mem with boundId := req.assignHub.getD req.id, provisional := false } } →
      (∀ hub, s.seq.mech = .homing → s.seq.homingWait = .ownLoad hub →
        exec (.tableLoadEnd bytes) s = .next (eventEnd s.store.unprinted (homingOver a)))
      ∧ (∀ w, s.seq.mech = .wheelWait → s.mem.wait = some w → w.decision = some req →
          exec (.tableLoadEnd bytes) s
            = .next (eventEnd s.store.unprinted (homingOver { a with mem := { a.mem with wait := none } })))
      ∧ (∀ hub, s.seq.mech = .homing → s.seq.homingWait = .otherLoad hub →
          exec (.tableLoadEnd bytes) s = .next (eventEnd s.store.unprinted (compareWheel hub a)))
      ∧ (∀ w d, s.seq.mech = .wheelWait → s.mem.wait = some w → w.decision = some d → d ≠ req →
          exec (.tableLoadEnd bytes) s = .next (eventEnd s.store.unprinted (fitWheel w.hub d true a)))
      ∧ ((s.seq.mech ≠ .homing ∧ s.seq.mech ≠ .wheelWait
            ∨ s.seq.mech = .wheelWait ∧ (∃ w, s.mem.wait = some w ∧ w.decision = none)
            ∨ s.seq.mech = .homing ∧ (s.seq.homingWait = .none ∨ ∃ hub, s.seq.homingWait = .header hub)) →
          exec (.tableLoadEnd bytes) s = .next (eventEnd s.store.unprinted a))
      ∧ a.mem.active = t ∧ (∀ w, s.seq.mech = .wheelWait → s.mem.wait = some w → tableInForce a = w.table))
    ∧ (parseTable req.id bytes = none →
        a = setLatch .wheelUnknown { s with mem := { s.mem with transaction := none, provisional := false } } →
        (∀ hub, s.seq.mech = .homing → s.seq.homingWait = .ownLoad hub →
          exec (.tableLoadEnd bytes) s = .next (eventEnd s.store.unprinted (enterWheelWait .unknown hub a)))
        ∧ (∀ w, s.seq.mech = .wheelWait → s.mem.wait = some w → w.decision = some req →
            exec (.tableLoadEnd bytes) s
              = .next (eventEnd s.store.unprinted
                  { a with mem := { a.mem with wait := some { w with reason := .unknown, decision := none } } }))
        ∧ (∀ hub, s.seq.mech = .homing → s.seq.homingWait = .otherLoad hub →
            exec (.tableLoadEnd bytes) s = .next (eventEnd s.store.unprinted (compareWheel hub a)))
        ∧ (∀ w d, s.seq.mech = .wheelWait → s.mem.wait = some w → w.decision = some d → d ≠ req →
            exec (.tableLoadEnd bytes) s = .next (eventEnd s.store.unprinted (fitWheel w.hub d true a)))
        ∧ ((s.seq.mech ≠ .homing ∧ s.seq.mech ≠ .wheelWait
              ∨ s.seq.mech = .wheelWait ∧ (∃ w, s.mem.wait = some w ∧ w.decision = none)
              ∨ s.seq.mech = .homing ∧ (s.seq.homingWait = .none ∨ ∃ hub, s.seq.homingWait = .header hub)) →
            exec (.tableLoadEnd bytes) s = .next (eventEnd s.store.unprinted a))))
  ∧ (∀ (hub : Nat) (d : LoadRequest) (again : Bool) (w : WaitRecord) (s : State), s.mem.wait = some w →
      (d.assignHub ≠ none → d.id = s.mem.active.id →
        fitWheel hub d again s = homingOver { s with mem := { s.mem with boundId := hub, wait := none } })
      ∧ (d.assignHub = none → again = true → s.mem.boundId = hub →
          fitWheel hub d again s = homingOver { s with mem := { s.mem with wait := none } })
      ∧ (¬(d.assignHub ≠ none ∧ d.id = s.mem.active.id) → ¬(d.assignHub = none ∧ again = true ∧ s.mem.boundId = hub) →
          (tableSource s.mem d.id = .rom →
            fitWheel hub d again s
              = { s with
                  mem :=
                    { s.mem with
                      wait := some { w with decision := some d }
                      loadWaiting := if s.mem.loadBusy then s.mem.loadWaiting else some d } })
          ∧ (tableSource s.mem d.id = .builtIn → s.mem.active = builtInTable →
              fitWheel hub d again s
                = homingOver { s with mem := { s.mem with boundId := d.assignHub.getD 0, wait := none } })
          ∧ (tableSource s.mem d.id = .builtIn → s.mem.active ≠ builtInTable → s.mem.loadBusy = true →
              fitWheel hub d again s = { s with mem := { s.mem with wait := some { w with decision := some d } } })
          ∧ (tableSource s.mem d.id = .builtIn → s.mem.active ≠ builtInTable → s.mem.loadBusy = false →
              ∃ u, u = replaceTable builtInTable (setLatch .wheelChanged s)
                ∧ fitWheel hub d again s
                  = homingOver { u with mem := { u.mem with boundId := d.assignHub.getD 0, wait := none } })
          ∧ (tableSource s.mem d.id = .absent →
              fitWheel hub d again s
                = setLatch .wheelUnknown
                    { s with mem := { s.mem with wait := some { w with reason := .unknown, decision := none } } })))
  ∧ (∀ (m : MemoryLink) (id : Nat),
      (romLists m.header id = true → tableSource m id = .rom)
      ∧ (romLists m.header id = false → id = 0 → tableSource m id = .builtIn)
      ∧ (romLists m.header id = false → id ≠ 0 → tableSource m id = .absent)
      ∧ (romLists m.header id = true ↔ ∃ h, m.header = some h ∧ ∃ e ∈ h.wheels, e.1 = id ∧ e.2 ≠ 0))
  ∧ (∀ (old new : WheelTable) (i : Impression),
      (i.made = true → reviseImpression old new i = some i)
      ∧ (i.made = false → ∀ p code, old.petals[i.petal]? = some p →
          code = (if p.code = old.underscore then new.underscore else p.code) →
          (new.petalOf code = none → reviseImpression old new i = none)
          ∧ ∀ n q, new.petalOf code = some (n, q) →
              reviseImpression old new i = some { petal := n, offset := i.offset, level := q.level, made := false }))
  ∧ (∀ (new : WheelTable) (s t : State) (revise : List Impression → List Impression) (lost : Prop),
      t = replaceTable new s → (∀ l, revise l = l.filterMap (reviseImpression s.mem.active new)) →
      (lost ↔ (∃ c ∈ s.store.cells, (c.state = .queued ∨ c.state = .striking)
            ∧ ∃ i ∈ c.impressions, reviseImpression s.mem.active new i = none)
          ∨ ∃ j ∈ s.seq.jobs, ∃ p l, j.kind = .strike (.detached p l)
            ∧ ∃ i ∈ l, reviseImpression s.mem.active new i = none) →
      t = { s with
        store := s.store.mapCells fun c =>
          if c.state = .queued ∨ c.state = .striking then { c with impressions := revise c.impressions } else c
        seq :=
          { s.seq with
            jobs := s.seq.jobs.map fun j =>
              match j.kind with
              | .strike (.detached p l) => { j with kind := .strike (.detached p (revise l)) }
              | .strike (.cell _) | .lift _ _ _ _ | .feed _ _ _ _ | .cross _ _ _ _ => j }
        mem := { s.mem with active := new }
        mon := t.mon }
      ∧ (lost → t.mon = { s.mon with latches := s.mon.latches.withLatch .noGlyph }) ∧ (¬lost → t.mon = s.mon))
  ∧ ∀ (id : Nat) (bytes : List Byte) (valid : Prop),
      (valid ↔ byteAt bytes 0 = id ∧ byteAt bytes 1 ≤ 3 ∧ byteAt bytes 304 ≤ 16
        ∧ ∀ n, n < 100 → ¬(1 ≤ byteAt bytes (4 + 3 * n) ∧ byteAt bytes (4 + 3 * n) ≤ 31)
            ∧ (byteAt bytes 1 = 3 → 5 ≤ byteAt bytes (5 + 3 * n) ∧ byteAt bytes (5 + 3 * n) ≤ 15)
            ∧ 1 ≤ byteAt bytes (6 + 3 * n) ∧ byteAt bytes (6 + 3 * n) ≤ 7) →
      (¬valid → parseTable id bytes = none)
      ∧ (valid → ∃ t, parseTable id bytes = some t ∧ t.id = id ∧ t.kind.byte.toNat = byteAt bytes 1
          ∧ t.spaceWidth = byteAt bytes 2 ∧ t.underscore = byteAt bytes 3 ∧ t.petals.length = 100
          ∧ (∀ n, n < 100 → t.petals[n]?
              = some { code := byteAt bytes (4 + 3 * n), width := byteAt bytes (5 + 3 * n), level := byteAt bytes (6 + 3 * n) })
          ∧ t.compositions.length = byteAt bytes 304
          ∧ ∀ n, n < byteAt bytes 304 → t.compositions[n]?
              = some
                  { composite := byteAt bytes (305 + 3 * n), base := byteAt bytes (306 + 3 * n)
                    accent := byteAt bytes (307 + 3 * n) })

/-- The reads of a lookup (R126 to R129, R132): a directory entry of 0 ends it with MISS, another asks for the bucket read at that address;
a bucket read ends with what R127 finds; a stale lookup ends without a verdict; a MISS found in the user list is a HIT. The verdict
goes to the request being read, which leaves the queue. A bucket
read ends at the first of the events of R127: a match is a HIT; a length of 0, 1 or above 24, an entry past the 256th byte and the 256th byte
itself are a MISS; bytes that reach none of them do not end it (log 22). A verdict marks the word's cells and, but for a MISS, takes their
WORD; a MISS joins the flagged list with its latch and the double beep (R130). A word handed over is folded and has the first outcome of Table
6-1 that applies (R24, R122, R123). An idle checker takes the oldest WAITING request: a match in the user list is a HIT at once and the next
is taken, otherwise it is READING and its directory read waits for the bus (R125). -/
def Obligations.LookupReadsEnd : Prop :=
  ((∀ (bytes : List Byte) (k : Lookup) (s free : State), s.mem.busJob = some .dictionary → s.spell.lookup = some k →
    free = { s with mem := { s.mem with transaction := none } } →
    (k.bucket = none → bytes.length = 3 →
      (k.stale = true →
        exec (.directoryReadEnd bytes) s
          = .next (eventEnd s.store.unprinted { free with spell := { s.spell with lookup := none } }))
      ∧ (k.stale = false → addressAt bytes 0 = 0 →
          exec (.directoryReadEnd bytes) s = .next (eventEnd s.store.unprinted (lookupEnds false free)))
      ∧ (k.stale = false → addressAt bytes 0 ≠ 0 →
          exec (.directoryReadEnd bytes) s
            = .next (eventEnd s.store.unprinted
                { free with
                  spell := { s.spell with lookup := some { k with bucket := some (addressAt bytes 0) } }
                  mem := { s.mem with transaction := none, dictWaiting := true } })))
    ∧ (k.bucket ≠ none → ∀ found, scanBucket k.letters bytes 257 0 = some found →
        exec (.bucketReadEnd bytes) s = .next (eventEnd s.store.unprinted (lookupEnds found free))))
  ∧ (∀ (found : Bool) (k : Lookup) (r : CheckRequest) (s done : State), s.spell.lookup = some k →
      (k.stale = true → lookupEnds found s = { s with spell := { s.spell with lookup := none } })
      ∧ (k.stale = false → s.spell.queue.find? (·.reading) = some r →
          done = { s with
            spell := { s.spell with lookup := none, queue := s.spell.queue.filter fun q => q.word != r.word } } →
          ((found = true ∨ r.letters ∈ s.spell.userList) →
            lookupEnds found s = applyVerdict r.word r.letters .hit done)
          ∧ (found = false → r.letters ∉ s.spell.userList →
              lookupEnds found s = applyVerdict r.word r.letters .miss done))))
  ∧ (∀ (letters : List Nat) (entries : List (List Byte)) (tail pre : List Byte),
      (∀ e ∈ entries, 2 ≤ e.length ∧ e.length ≤ 24 ∧ e.map BitVec.toNat ≠ letters) →
      pre = entries.flatMap (fun e => BitVec.ofNat 8 e.length :: e) → pre.length ≤ 256 →
      (pre.length = 256 → scanBucket letters (pre ++ tail) 257 0 = some false)
      ∧ (pre.length < 256 → tail = [] → scanBucket letters (pre ++ tail) 257 0 = none)
      ∧ ∀ b more, tail = b :: more → pre.length < 256 →
          ((b.toNat ≤ 1 ∨ 24 < b.toNat ∨ 256 < pre.length + 1 + b.toNat) →
            scanBucket letters (pre ++ tail) 257 0 = some false)
          ∧ (2 ≤ b.toNat → b.toNat ≤ 24 → pre.length + 1 + b.toNat ≤ 256 →
              (more.length < b.toNat → scanBucket letters (pre ++ tail) 257 0 = none)
              ∧ (b.toNat ≤ more.length → (more.take b.toNat).map BitVec.toNat = letters →
                  scanBucket letters (pre ++ tail) 257 0 = some true)))
  ∧ (∀ (w : WordRef) (letters : List Nat) (s : State),
      applyVerdict w letters .hit s
        = { s with store := s.store.mapCells fun c =>
              if c.word = some w then { c with mark := some .hit, holds := { c.holds with word := false } } else c }
      ∧ applyVerdict w letters .skip s
        = { s with store := s.store.mapCells fun c =>
              if c.word = some w then { c with mark := some .skip, holds := { c.holds with word := false } } else c }
      ∧ applyVerdict w letters .miss s
        = beep .double
            { s with
              store := s.store.mapCells fun c => if c.word = some w then { c with mark := some .miss } else c
              spell := { s.spell with flagged := s.spell.flagged ++ [{ word := w, letters := letters }] }
              mon := { s.mon with latches := s.mon.latches.withLatch .miss } })
  ∧ (∀ (w : WordRef) (codes : List Nat) (before : Option Nat) (delimiter : Nat) (letters : List Nat) (digit : Prop) (s : State),
      letters = codes.map foldCode →
      (digit ↔ (∃ c, before = some c ∧ 48 ≤ c ∧ c ≤ 57) ∨ 48 ≤ delimiter ∧ delimiter ≤ 57) →
      ((s.spell.enabled = false ∨ codes.length ≤ 1 ∨ 24 < codes.length ∨ digit) →
        handOff w codes before delimiter s = applyVerdict w letters .skip s)
      ∧ (s.spell.enabled = true → 2 ≤ codes.length → codes.length ≤ 24 → ¬digit →
          (s.spell.availability = .unavailable → letters ∈ s.spell.userList →
            handOff w codes before delimiter s = applyVerdict w letters .hit s)
          ∧ (s.spell.availability = .unavailable → letters ∉ s.spell.userList →
            handOff w codes before delimiter s = applyVerdict w letters .skip s)
          ∧ (s.spell.availability ≠ .unavailable → 6 ≤ s.spell.queue.length →
            handOff w codes before delimiter s = setLatch .spellOverrun (applyVerdict w letters .skip s))
          ∧ (s.spell.availability ≠ .unavailable → s.spell.queue.length < 6 →
            handOff w codes before delimiter s
              = takeChecks
                  { s with
                    store := s.store.mapCells fun c => if c.word = some w then { c with mark := some .pending } else c
                    spell :=
                      { s.spell with queue := s.spell.queue ++ [{ word := w, letters := letters, reading := false }] } })))
  ∧ ∀ (n : Nat) (r : CheckRequest) (reading waiting : List CheckRequest) (s : State),
      takeChecks s = takeChecksFuel 7 s
      ∧ ((s.spell.lookup ≠ none ∨ s.spell.enabled = false ∨ s.spell.availability ≠ .available ∨ s.mem.listRead = false
          ∨ ∀ q ∈ s.spell.queue, q.reading = true) → takeChecksFuel (n + 1) s = s)
      ∧ (s.spell.lookup = none → s.spell.enabled = true → s.spell.availability = .available → s.mem.listRead = true →
          s.spell.queue = reading ++ r :: waiting → (∀ q ∈ reading, q.reading = true) → r.reading = false →
          (r.letters ∈ s.spell.userList →
            takeChecksFuel (n + 1) s
              = takeChecksFuel n (applyVerdict r.word r.letters .hit
                  { s with spell := { s.spell with queue := s.spell.queue.filter fun q => q.word != r.word } }))
          ∧ (r.letters ∉ s.spell.userList → (∀ q ∈ reading ++ waiting, q.word ≠ r.word) →
              takeChecksFuel (n + 1) s
                = { s with
                    spell :=
                      { s.spell with
                        queue := reading ++ { r with reading := true } :: waiting
                        lookup := some { letters := r.letters, bucket := none, stale := false } }
                    mem := { s.mem with dictWaiting := true } }))

/-- The power-on record reads (R156, R152): a good settings record gives the settings of every block and fills the image, a bad one gives
the defaults with NV_DEFAULTS and no page known; a good user list replaces the word list, a bad one empties it with NV_DEFAULTS. The
first line opens and the display is ON when the settings read ends. -/
def Obligations.RecordReadsRestoreOrDefault : Prop :=
  ∀ (bytes : List Byte) (rest : List NvItem) (s : State), s.mem.busJob = some .nvRead →
    (s.mem.nv = .readSettings :: rest → bytes.length = 64 →
      ∃ t x, exec (.nvRecordReadEnd bytes) s = .next t ∧ t = eventEnd s.store.unprinted x
        ∧ (∀ r, parseSettings bytes = some r →
            x = applySettings r
              { s with
                mem :=
                  { s.mem with nv := rest, transaction := none, image := bytes, pageKnown := List.replicate 4 true } })
        ∧ (parseSettings bytes = none →
            x = setLatch .nvDefaults
              (applySettings SettingsRecord.defaults
                { s with mem := { s.mem with nv := rest, transaction := none, pageKnown := List.replicate 4 false } }))
        ∧ ∀ r, r = (parseSettings bytes).getD SettingsRecord.defaults →
            t.store.settings = r.line ∧ t.store.openLine.left = r.line.left ∧ t.store.openLine.right = r.line.right
            ∧ t.store.openLine.cells = [] ∧ t.seq.setting = r.impression ∧ t.spell.enabled = r.spellEnable
            ∧ t.mon.beeperEnable = r.beeperEnable ∧ t.mon.idleMinutes = r.idleMinutes ∧ t.mon.config = r.config
            ∧ t.mon.lamps.map (·.assignment) = r.lamps ∧ t.disp.state = .on ∧ t.mem.settingsRead = true)
    ∧ (s.mem.nv = .readList :: rest → bytes.length = 1024 →
        ∃ t x, exec (.nvRecordReadEnd bytes) s = .next t ∧ t = eventEnd s.store.unprinted x
          ∧ (∀ ws, parseList bytes = some ws →
              x = { s with
                mem := { s.mem with nv := rest, transaction := none, listRead := true }
                spell := { s.spell with userList := ws } })
          ∧ (parseList bytes = none →
              x = setLatch .nvDefaults
                { s with
                  mem := { s.mem with nv := rest, transaction := none, listRead := true }
                  spell := { s.spell with userList := [] } })
          ∧ t.spell.userList = (parseList bytes).getD [] ∧ t.mem.listRead = true)

/-- The settings record that a save writes is read back as the same settings (R152, Table 11-5): for settings in their ranges, no field of
the record is dropped and its check byte is good. A user-list record of 1024 bytes reads back as a list exactly when the list is good (at
most 40 words of 2 to 24 values 1..27, in sorted order, none twice) and the record is the one that a save of that list writes (R152, R136,
Table 11-6; that its padding must be 0 is the model's reading, log 16): its word count, each word's length and values in an entry of 25
bytes, zeros behind, and the check byte that makes the sum 0. -/
def Obligations.SettingsRecordRoundTrip : Prop :=
  (∀ r : SettingsRecord,
    r.line.left < r.line.right → r.line.right ≤ 1560 → 120 ≤ r.line.right - r.line.left →
    (r.line.spacing = 8 ∨ r.line.spacing = 12 ∨ r.line.spacing = 16) →
    (r.line.decimalChar = 46 ∨ r.line.decimalChar = 44) → r.line.bellWidth ≤ 120 →
    r.line.tabs.length ≤ 20 → (∀ t ∈ r.line.tabs, t.position ≤ 1560) → stopsSorted r.line.tabs = true →
    1 ≤ r.impression → r.impression ≤ 4 → r.idleMinutes ≤ 60 → r.lamps.length = 4 →
    (buildSettings r).length = 64 ∧ parseSettings (buildSettings r) = some r)
  ∧ (∀ (bytes : List Byte) (words : List (List Nat)), bytes.length = 1024 →
      (parseList bytes = some words ↔
        (words.length ≤ 40 ∧ wordsSorted words = true
          ∧ ∀ w ∈ words, 2 ≤ w.length ∧ w.length ≤ 24 ∧ ∀ v ∈ w, 1 ≤ v ∧ v ≤ 27)
        ∧ bytes = buildList words))
  ∧ ∀ words : List (List Nat),
      words.length ≤ 40 → (∀ w ∈ words, 2 ≤ w.length ∧ w.length ≤ 24 ∧ ∀ v ∈ w, 1 ≤ v ∧ v ≤ 27) →
      (wordsSorted words = true → parseList (buildList words) = some words)
      ∧ (buildList words).length = 1024 ∧ byteSum (buildList words) = 0 ∧ byteAt (buildList words) 0 = words.length
      ∧ (∀ i w, words[i]? = some w →
          byteAt (buildList words) (1 + 25 * i) = w.length
          ∧ ∀ j, j < 24 → byteAt (buildList words) (2 + 25 * i + j) = w.getD j 0)
      ∧ ∀ k, 1 + 25 * words.length ≤ k → k < 1023 → byteAt (buildList words) k = 0

/-- The pages of a settings save (R154, R153, R155, R190): the write's end makes the read-back next; an equal page updates the image, is
known and the save goes on or ends with its ACK; a first difference writes the page again; a second one fails the save with NV_FAIL,
the page unknown and the refusal NV_FAIL. The pages of a list save go
the same way without an image, and no reply waits on it (R136). -/
def Obligations.PagesAreWrittenAndVerified : Prop :=
  (∀ (bytes : List Byte) (p : SaveProgress) (n : Nat) (ns : List Nat) (rest : List NvItem) (tag : Byte) (s : State),
    s.mem.nv = .saveSettings (some p) :: rest → p.pages = n :: ns → s.link.save = some tag →
    (s.mem.busJob = some .nvWrite →
      exec .pageWriteEnd s
        = .next (eventEnd s.store.unprinted
            { s with
              mem :=
                { s.mem with transaction := none, nv := .saveSettings (some { p with readback := true }) :: rest } }))
    ∧ (s.mem.busJob = some .nvReadback → bytes.length = 16 →
        (bytes = pageOf p.record n → ns ≠ [] →
          exec (.pageReadbackEnd bytes) s
            = .next (eventEnd s.store.unprinted
                { s with
                  mem :=
                    { s.mem with
                      transaction := none
                      image := s.mem.image.take (16 * n) ++ bytes ++ s.mem.image.drop (16 * n + 16)
                      pageKnown := s.mem.pageKnown.set n true
                      nv := .saveSettings (some { p with pages := ns, readback := false, retried := false }) :: rest } }))
        ∧ (bytes = pageOf p.record n → ns = [] →
            exec (.pageReadbackEnd bytes) s
              = .next (eventEnd s.store.unprinted
                  { s with
                    mem :=
                      { s.mem with
                        transaction := none
                        image := s.mem.image.take (16 * n) ++ bytes ++ s.mem.image.drop (16 * n + 16)
                        pageKnown := s.mem.pageKnown.set n true
                        nv := rest }
                    link :=
                      { s.link with
                        save := none
                        output := s.link.output ++ [{ kind := 0x9F, tag := tag, payload := [] }] } }))
        ∧ (bytes ≠ pageOf p.record n → p.retried = false →
            exec (.pageReadbackEnd bytes) s
              = .next (eventEnd s.store.unprinted
                  { s with
                    mem :=
                      { s.mem with
                        transaction := none
                        nv := .saveSettings (some { p with readback := false, retried := true }) :: rest } }))
        ∧ (bytes ≠ pageOf p.record n → p.retried = true →
            exec (.pageReadbackEnd bytes) s
              = .next (eventEnd s.store.unprinted
                  (setLatch .nvFail
                    { s with
                      mem := { s.mem with transaction := none, pageKnown := s.mem.pageKnown.set n false, nv := rest }
                      link :=
                        { s.link with
                          save := none
                          output := s.link.output
                            ++ [{ kind := 0xE1, tag := tag, payload := [17, 0x1F] }] } })))))
  ∧ ∀ (bytes : List Byte) (p : SaveProgress) (n : Nat) (ns : List Nat) (rest : List NvItem) (s : State),
      s.mem.nv = .saveList (some p) :: rest → p.pages = n :: ns →
      (s.mem.busJob = some .nvWrite →
        exec .pageWriteEnd s
          = .next (eventEnd s.store.unprinted
              { s with
                mem := { s.mem with transaction := none, nv := .saveList (some { p with readback := true }) :: rest } }))
      ∧ (s.mem.busJob = some .nvReadback → bytes.length = 16 →
          (bytes = pageOf p.record n → ns ≠ [] →
            exec (.pageReadbackEnd bytes) s
              = .next (eventEnd s.store.unprinted
                  { s with
                    mem :=
                      { s.mem with
                        transaction := none
                        nv := .saveList (some { p with pages := ns, readback := false, retried := false }) :: rest } }))
          ∧ (bytes = pageOf p.record n → ns = [] →
              exec (.pageReadbackEnd bytes) s
                = .next (eventEnd s.store.unprinted { s with mem := { s.mem with transaction := none, nv := rest } }))
          ∧ (bytes ≠ pageOf p.record n → p.retried = false →
              exec (.pageReadbackEnd bytes) s
                = .next (eventEnd s.store.unprinted
                    { s with
                      mem :=
                        { s.mem with
                          transaction := none
                          nv := .saveList (some { p with readback := false, retried := true }) :: rest } }))
          ∧ (bytes ≠ pageOf p.record n → p.retried = true →
              exec (.pageReadbackEnd bytes) s
                = .next (eventEnd s.store.unprinted
                    (setLatch .nvFail { s with mem := { s.mem with transaction := none, nv := rest } }))))

/-- The arbiter's next grant on a free bus (R152a, R150): a waiting header read, then a waiting table load the ROM lists; otherwise an NV
transaction when the grant counter is 4; otherwise a waiting dictionary read, which raises the counter; otherwise an NV transaction, here a
power-on read or the next transaction of a save under way. On a busy bus nothing is granted. A save builds its record
at its first grant: of the settings in force, to be written in the pages not known and equal to the image, in address order, or of the user
list as it stands, to be written in all 64 pages (R153, R136). A settings save with no page to write ends at its grant with its ACK, and the bus
is free for the next (R155; that the grant counter is 0 then too is the model's reading, log 20). -/
def Obligations.ArbiterGrantsInOrder : Prop :=
  (∀ s : State,
    (s.mem.transaction ≠ none → grantBus s = s)
    ∧ (s.mem.transaction = none →
        (s.mem.headerWaiting = true →
          grantBus s
            = { s with mem := { s.mem with headerWaiting := false, transaction := some { job := .header, mark := false } } })
        ∧ (∀ req, s.mem.headerWaiting = false → s.mem.loadWaiting = some req →
            romLists s.mem.header req.id = true →
            grantBus s
              = { s with
                mem := { s.mem with loadWaiting := none, transaction := some { job := .load req, mark := false } } })
        ∧ (s.mem.headerWaiting = false → s.mem.loadWaiting = none → s.mem.dictWaiting = true →
            (s.mem.nv = [] ∨ s.mem.grantCounter ≠ 4) →
            grantBus s
              = { s with
                mem :=
                  { s.mem with
                    dictWaiting := false, grantCounter := min 4 (s.mem.grantCounter + 1)
                    transaction := some { job := .dictionary, mark := false } } })
        ∧ (∀ p rest, s.mem.headerWaiting = false → s.mem.loadWaiting = none →
            (s.mem.nv = .saveSettings (some p) :: rest ∨ s.mem.nv = .saveList (some p) :: rest) →
            (s.mem.dictWaiting = false ∨ s.mem.grantCounter = 4) →
            grantBus s
              = { s with
                mem :=
                  { s.mem with
                    grantCounter := 0
                    transaction := some { job := if p.readback then .nvReadback else .nvWrite, mark := false } } })
        ∧ (∀ rest, s.mem.headerWaiting = false → s.mem.loadWaiting = none →
            (s.mem.nv = .readSettings :: rest ∨ s.mem.nv = .readList :: rest) →
            (s.mem.dictWaiting = false ∨ s.mem.grantCounter = 4) →
            grantBus s
              = { s with
                mem := { s.mem with grantCounter := 0, transaction := some { job := .nvRead, mark := false } } })
        ∧ (s.mem.headerWaiting = false → s.mem.loadWaiting = none → s.mem.dictWaiting = false → s.mem.nv = [] →
            grantBus s = s)))
  ∧ ∀ (rest : List NvItem) (record : List Byte) (pages : List Nat) (s : State),
      s.mem.transaction = none → s.mem.headerWaiting = false → s.mem.loadWaiting = none →
      (s.mem.dictWaiting = false ∨ s.mem.grantCounter = 4) →
      (s.mem.nv = .saveSettings none :: rest →
        record = buildSettings
          { line := s.store.settings, impression := s.seq.setting, spellEnable := s.spell.enabled
            beeperEnable := s.mon.beeperEnable, idleMinutes := s.mon.idleMinutes, config := s.mon.config
            lamps := s.mon.lamps.map (·.assignment) } →
        pages = (List.range 4).filter
          (fun n => !(s.mem.pageKnown[n]? == some true && pageOf s.mem.image n == pageOf record n)) →
        (pages ≠ [] →
          grantBus s
            = { s with
                mem :=
                  { s.mem with
                    grantCounter := 0, transaction := some { job := .nvWrite, mark := false }
                    nv := .saveSettings (some { record := record, pages := pages, readback := false, retried := false })
                      :: rest } })
        ∧ (pages = [] → ∀ tag ended, s.link.save = some tag →
            ended = { s with
              mem := { s.mem with grantCounter := 0, nv := rest }
              link :=
                { s.link with
                  save := none, output := s.link.output ++ [{ kind := 0x9F, tag := tag, payload := [] }] } } →
            grantBus s = grantFuel 5 ended ∧ (rest = [] → s.mem.dictWaiting = false → grantBus s = ended)))
      ∧ (s.mem.nv = .saveList none :: rest →
          grantBus s
            = { s with
                mem :=
                  { s.mem with
                    grantCounter := 0, transaction := some { job := .nvWrite, mark := false }
                    nv := .saveList
                        (some
                          { record := buildList s.spell.userList, pages := List.range 64, readback := false
                            retried := false })
                      :: rest } })

/-! ### The mechanism -/

/-- A supervision tick and the motion mark (R86, R87, R85): a tick marks the motion in progress, and one that finds the mark set declares a
stall; STALL alone is that part of a tick (the model's reading, log 7). A stall stops all motion: FAULT, both positions unknown,
lifters down at once (the model's choice, log 52), no motion left behind, the job in flight still at the head; a STRIKE in flight that has
made no impression has its cell back in QUEUED, one with an impression made leaves it STRIKING, and no other cell changes; HOME_FAIL during
homing (which is a home failure) and JAM otherwise, with the triple beep. -/
def Obligations.TickMarksAndStalls : Prop :=
  ∀ (moved : Bool) (s : State), s.mon.power = .running →
    (motionInProgress s.seq = true → s.seq.mark = true →
      exec .stall s = .next (eventEnd s.store.unprinted (stallMotion s)))
    ∧ ((motionInProgress s.seq = false ∨ s.seq.mark = false) → exec .stall s = .next s)
    ∧ (s.link.receiver = .hunting → s.mem.transaction = none → motionInProgress s.seq = true → s.seq.mark = false →
        exec (.supervisionTick moved) s
          = .next (eventEnd s.store.unprinted { s with seq := { s.seq with mark := true } }))
    ∧ (s.link.receiver = .hunting → s.mem.transaction = none → motionInProgress s.seq = true → s.seq.mark = true →
        exec (.supervisionTick moved) s = .next (eventEnd s.store.unprinted (stallMotion s)))
    ∧ (stallMotion s).seq.mech = .fault ∧ (stallMotion s).seq.carriage = none ∧ (stallMotion s).seq.petal = none
    ∧ (stallMotion s).seq.ribbonLifter = .down ∧ (stallMotion s).seq.tapeLifter = .down
    ∧ (stallMotion s).seq.hammer = .rest ∧ (stallMotion s).seq.phase = .rest ∧ (stallMotion s).seq.mark = false
    ∧ (stallMotion s).seq.parking = false ∧ (stallMotion s).seq.paperFeed = none ∧ (stallMotion s).seq.homing = none
    ∧ (stallMotion s).seq.jobs = s.seq.jobs ∧ (stallMotion s).seq.inFlight = s.seq.inFlight
    ∧ (stallMotion s).seq.platen = s.seq.platen
    ∧ (stallMotion s).mon.latches
      = s.mon.latches.withLatch (if s.seq.mech = .homing then .homeFail else .jam)
    ∧ (s.mon.beeperEnable = true →
        (stallMotion s).mon.beeper = some { pattern := .triple, tone := true, tonesLeft := 2, timer := 150 })
    ∧ (s.mon.beeperEnable = false → (stallMotion s).mon.beeper = s.mon.beeper)
    ∧ (∀ n m js, s.seq.inFlight = true → s.seq.jobs = { kind := .strike (.cell n), marked := m } :: js →
        (stallMotion s).store
          = s.store.mapCell n fun c => if c.impressions.any (·.made) = true then c else { c with state := .queued })
    ∧ ((s.seq.inFlight = false ∨ ∀ n m js, s.seq.jobs ≠ { kind := .strike (.cell n), marked := m } :: js) →
        (stallMotion s).store = s.store)
    ∧ (s.seq.mech = .homing → homeFail s = stallMotion s)

/-- A supervision tick and the memory transaction (R151b, Table 7-5): the mark is set, and a tick that finds it set with no byte moved since
abandons the transaction, sets MEM_FAULT and hands its owner the failure. That the row's operand says whether a byte has moved, and that the
time-out is judged within SUPERVISION_TICK, is the model's choice (log 2). What the owners do is stated too: an abandoned header read acts
as a bad one; an abandoned load keeps the table with WHEEL_UNKNOWN and, like a load that fails, makes its homing or its decision UNKNOWN, or
lets another one that waited be judged again (log 19), leaves a WHEEL_WAIT with decision NONE as it is (log 47), and has nothing follow in
another state or in a homing before its comparison (R145, R147); an abandoned record read gives the defaults or an empty list with NV_DEFAULTS
(R156); an abandoned save ends with NV_FAIL, a settings save with its page unknown and SAVE-SETTINGS refused NV_FAIL (R153, R154, R155). -/
def Obligations.TickAbandonsSilentTransactions : Prop :=
  (∀ (t : Transaction) (moved : Bool) (s free : State), s.mon.power = .running → s.link.receiver = .hunting →
    motionInProgress s.seq = false → s.mem.transaction = some t →
    free = setLatch .memFault { s with mem := { s.mem with transaction := none } } →
    ((t.mark = false ∨ moved = true) →
      exec (.supervisionTick moved) s
        = .next (eventEnd s.store.unprinted { s with mem := { s.mem with transaction := some { t with mark := true } } }))
    ∧ (t.mark = true → moved = false →
        (t.job = .header →
          exec (.supervisionTick moved) s = .next (eventEnd s.store.unprinted (headerEnds none free)))
        ∧ (∀ req, t.job = .load req →
            exec (.supervisionTick moved) s = .next (eventEnd s.store.unprinted (loadFails req free)))
        ∧ (t.job = .dictionary →
            exec (.supervisionTick moved) s = .next (eventEnd s.store.unprinted (spellingLost free)))
        ∧ (t.job = .nvRead →
            exec (.supervisionTick moved) s = .next (eventEnd s.store.unprinted (recordReadEnds none free)))
        ∧ ((t.job = .nvWrite ∨ t.job = .nvReadback) →
            exec (.supervisionTick moved) s = .next (eventEnd s.store.unprinted (saveEnds false free)))))
  ∧ (∀ (bytes : List Byte) (s free : State), free = setLatch .memFault { s with mem := { s.mem with transaction := none } } →
      s.mem.busJob = some .header → bytes.length = 200 → parseHeader bytes = none →
      exec (.headerReadEnd bytes) (setLatch .memFault s) = .next (eventEnd s.store.unprinted (headerEnds none free)))
  ∧ (∀ (req : LoadRequest) (s a : State), a = setLatch .wheelUnknown { s with mem := { s.mem with provisional := false } } →
      (∀ hub, s.seq.mech = .homing → s.seq.homingWait = .ownLoad hub → loadFails req s = enterWheelWait .unknown hub a)
      ∧ (∀ hub, s.seq.mech = .homing → s.seq.homingWait = .otherLoad hub → loadFails req s = compareWheel hub a)
      ∧ (∀ w d, s.seq.mech = .wheelWait → s.mem.wait = some w → w.decision = some d →
          (d = req → loadFails req s
            = { a with mem := { a.mem with wait := some { w with reason := .unknown, decision := none } } })
          ∧ (d ≠ req → loadFails req s = fitWheel w.hub d true a))
      ∧ ((s.seq.mech = .wheelWait ∧ (∀ w, s.mem.wait = some w → w.decision = none)
            ∨ s.seq.mech = .homing ∧ (s.seq.homingWait = .none ∨ ∃ hub, s.seq.homingWait = .header hub)
            ∨ s.seq.mech ≠ .homing ∧ s.seq.mech ≠ .wheelWait) → loadFails req s = a))
  ∧ (∀ (rest : List NvItem) (s : State),
      (s.mem.nv = .readSettings :: rest →
        recordReadEnds none s
          = setLatch .nvDefaults
              (applySettings SettingsRecord.defaults
                { s with mem := { s.mem with nv := rest, transaction := none, pageKnown := List.replicate 4 false } }))
      ∧ (s.mem.nv = .readList :: rest →
          recordReadEnds none s
            = setLatch .nvDefaults
                { s with
                  mem := { s.mem with nv := rest, transaction := none, listRead := true }
                  spell := { s.spell with userList := [] } }))
  ∧ ∀ (p : SaveProgress) (n : Nat) (ns : List Nat) (rest : List NvItem) (tag : Byte) (s : State), p.pages = n :: ns →
      (s.mem.nv = .saveSettings (some p) :: rest → s.link.save = some tag →
        saveEnds false s
          = setLatch .nvFail
              { s with
                mem := { s.mem with pageKnown := s.mem.pageKnown.set n false, nv := rest }
                link :=
                  { s.link with
                    save := none, output := s.link.output ++ [{ kind := 0xE1, tag := tag, payload := [17, 0x1F] }] } })
      ∧ (s.mem.nv = .saveList (some p) :: rest →
          saveEnds false s = setLatch .nvFail { s with mem := { s.mem with nv := rest } })

/-- An encoder edge (R82, R83, R73, R71, R79, R80, R86): in a homing it counts travel or steps up to the limits, whose overrun is a home
failure (which edge fails is the model's reading, log 10); otherwise it moves a driven carriage one unit towards its target, or the
wheel one step, and the last step puts the target petal under the hammer. Of a CROSS in flight an edge also raises the edges counted, and
the job rests to complete when the platen's steps are made and the carriage stands at its target (two counts: log 17). That an edge of a
motor that does not move changes nothing is the model's choice (log 4). The edge that ends the last outstanding motion of an impression, the
carriage at its target, the wheel at its petal and the ribbon of a STRIKE up, lets the job go on; the one that brings a park move to its
target ends it; any other leaves the phase as it is. -/
def Obligations.EncoderEdgeCountsProgress : Prop :=
  (∀ (n : Nat) (h : Homing) (s : State),
    (s.seq.homing = some h → h.carriage = .rightward n →
      (n + 1 < 60 →
        exec (.encoderEdge .carriage) s
          = .next (eventEnd s.store.unprinted
              { s with seq := { s.seq with homing := some { h with carriage := .rightward (n + 1) }, mark := false } }))
      ∧ (60 ≤ n + 1 → exec (.encoderEdge .carriage) s = .next (eventEnd s.store.unprinted (homeFail s))))
    ∧ (s.seq.homing = some h → h.carriage = .leftward n →
        (n + 1 < 1700 →
          exec (.encoderEdge .carriage) s
            = .next (eventEnd s.store.unprinted
                { s with seq := { s.seq with homing := some { h with carriage := .leftward (n + 1) }, mark := false } }))
        ∧ (1700 ≤ n + 1 → exec (.encoderEdge .carriage) s = .next (eventEnd s.store.unprinted (homeFail s))))
    ∧ (s.seq.homing = some h → h.carriage = .ended →
        exec (.encoderEdge .carriage) s = .next (eventEnd s.store.unprinted s))
    ∧ (s.seq.homing = some h → h.wheel = .seeking n →
        (n + 1 < 800 →
          exec (.encoderEdge .wheel) s
            = .next (eventEnd s.store.unprinted
                { s with seq := { s.seq with homing := some { h with wheel := .seeking (n + 1) }, mark := false } }))
        ∧ (800 ≤ n + 1 → exec (.encoderEdge .wheel) s = .next (eventEnd s.store.unprinted (homeFail s))))
    ∧ (s.seq.homing = some h → h.wheel = .reading n → n < 400 →
        exec (.encoderEdge .wheel) s
          = .next (eventEnd s.store.unprinted
              { s with seq := { s.seq with homing := some { h with wheel := .reading (n + 1) }, mark := false } }))
    ∧ (∀ p t q, s.seq.homing = none → s.seq.carriage = some p → s.seq.carTarget = some t → p ≠ t →
        (s.seq.phase = .moving ∨ s.seq.phase ≠ .crossing ∧ s.seq.parking = true) →
        q = (if p < t then p + 1 else p - 1) →
        exec (.encoderEdge .carriage) s
          = .next (eventEnd s.store.unprinted
              (settleMotion { s with seq := { s.seq with carriage := some q, mark := false } })))
    ∧ (∀ m, s.seq.homing = none → s.seq.wheelMove = some m → 1 < m.stepsLeft →
        exec (.encoderEdge .wheel) s
          = .next (eventEnd s.store.unprinted
              { s with
                seq := { s.seq with wheelMove := some { m with stepsLeft := m.stepsLeft - 1 }, mark := false } }))
    ∧ (∀ m, s.seq.homing = none → s.seq.wheelMove = some m → m.stepsLeft ≤ 1 →
        exec (.encoderEdge .wheel) s
          = .next (eventEnd s.store.unprinted
              (settleMotion
                { s with seq := { s.seq with petal := some m.target, wheelMove := none, mark := false } })))
    ∧ (∀ p t q back target done edges mk js, s.seq.homing = none → s.seq.carriage = some p → s.seq.carTarget = some t →
        p ≠ t → s.seq.phase = .crossing → s.seq.jobs = { kind := .cross back target done edges, marked := mk } :: js →
        q = (if p < t then p + 1 else p - 1) →
        exec (.encoderEdge .carriage) s
          = .next (eventEnd s.store.unprinted
              { s with
                seq :=
                  { s.seq with
                    carriage := some q, mark := false
                    jobs := { kind := .cross back target done (edges + 1), marked := mk } :: js
                    phase := if back ≤ done ∧ q = t then .rest else .crossing } }))
    ∧ (s.seq.homing = none → s.seq.wheelMove = none →
        exec (.encoderEdge .wheel) s = .next (eventEnd s.store.unprinted s))
    ∧ (s.seq.homing = none → s.seq.phase ≠ .moving → s.seq.phase ≠ .crossing → s.seq.parking = false →
        exec (.encoderEdge .carriage) s = .next (eventEnd s.store.unprinted s)))
  ∧ ∀ (s : State) (settled : Prop),
      (settled ↔ s.seq.carriage = s.seq.carTarget ∧ s.seq.wheelMove = none
        ∧ (headIsLift s.seq = true ∨ s.seq.ribbonLifter = .up)) →
      (s.seq.phase = .moving → settled → settleMotion s = { s with seq := { s.seq with phase := .rest } })
      ∧ (s.seq.phase = .moving → ¬settled → settleMotion s = s)
      ∧ (s.seq.phase ≠ .moving → s.seq.phase ≠ .crossing →
          (s.seq.parking = true → s.seq.carriage = s.seq.carTarget →
            settleMotion s = { s with seq := { s.seq with parking := false, mark := false } })
          ∧ ((s.seq.parking = false ∨ s.seq.carriage ≠ s.seq.carTarget) → settleMotion s = s))

/-- MOTION_SETTLED and PARK_MOVE_DONE (R71, R79, R80): the motions outstanding for an impression or a crossing have ended, or the park move
has; the carriage stands at its target, the wheel at its petal, the ribbon lifter of a STRIKE up, and the job in flight goes on from
there. That one row completes the outstanding motion is the model's choice (log 6), and so is that a row without a motion or a park move
under way changes nothing of its own (log 4). With an empty
queue and no suspend reason the sequencer is READY, the ribbon lifter is lowered and the carriage parks: at the typing point of a FLUSH_LEFT
line, at the segment's point while one is open in it, at the left margin of any other line (R80). -/
def Obligations.SettledMotionStandsAtItsTarget : Prop :=
  (∀ s : State,
    (s.seq.phase = .moving →
      exec .motionSettled s
        = .next (eventEnd s.store.unprinted
            { s with
              seq :=
                { s.seq with
                  phase := .rest, carriage := s.seq.carTarget, wheelMove := none, mark := false
                  petal := (match s.seq.wheelMove with | some m => some m.target | none => s.seq.petal)
                  ribbonLifter := if headIsLift s.seq then s.seq.ribbonLifter else .up } }))
    ∧ (∀ back target done edges mk js, s.seq.phase = .crossing →
        s.seq.jobs = { kind := .cross back target done edges, marked := mk } :: js →
        exec .motionSettled s
          = .next (eventEnd s.store.unprinted
              { s with
                seq :=
                  { s.seq with
                    carriage := s.seq.carTarget, mark := false
                    phase := if back ≤ done then .rest else .crossing } }))
    ∧ (s.seq.phase ≠ .moving → s.seq.phase ≠ .crossing →
        exec .motionSettled s = .next (eventEnd s.store.unprinted s))
    ∧ (s.seq.parking = true →
        exec .parkMoveDone s
          = .next (eventEnd s.store.unprinted
              { s with seq := { s.seq with carriage := s.seq.carTarget, parking := false, mark := false } }))
    ∧ (s.seq.parking = false → exec .parkMoveDone s = .next (eventEnd s.store.unprinted s)))
  ∧ ∀ (n p : Nat) (s : State), unsuspended s → s.seq.inFlight = false → s.seq.jobs = [] →
      p = (if s.store.openLine.alignment = .flushLeft then
          (match s.store.openLine.segment with | some g => g.point | none => s.store.openLine.typingPoint)
        else s.store.openLine.left) →
      seqLoop (n + 1) s
        = { s with
            seq := { s.seq with
              mech := .ready, suspend := {}, ribbonLifter := s.seq.ribbonLifter.lower, carTarget := some p
              parking := decide (s.seq.carriage ≠ some p)
              mark :=
                decide (s.seq.mark = true ∧ s.seq.parking = true ∧ s.seq.carTarget = some p ∧ s.seq.carriage ≠ some p) } }

/-- The end of the pulse, the hammer home and a lifter at its end (R71, R76, R86): the hammer is released at the pulse's end, a LIFT's tape lifter
lowered; with the hammer home, and the tape lifter down for a LIFT, the impression is complete; a risen tape lifter lets the LIFT's impression
fire. A row without its cause changes nothing itself (log 4). Without a suspend reason the sequencer takes its head job, BUSY with the impression
setting in force recorded and a park move abandoned, or goes on with the one in flight that is at rest or paused (R66, R70; `seqLoop n` is the
sequencer with n jobs or more left to look at). A STRIKE makes its cell STRIKING, raises the ribbon and goes to its first impression not made,
wheel and carriage together (from an unknown petal as from petal 0: log 33); settled there with the ribbon up it pauses at a ribbon end, and
otherwise, the cover closed, it starts the pulse of R74, which makes the impression in the cell, or in the copy of a detached STRIKE and the
pending LIFT behind it (R69, R71, R75). A LIFT lowers the ribbon and works its impressions last first: at each it raises the tape, pauses at a
tape end with the tape lowered, and otherwise strikes two levels higher, which raises lifts done (R75, R76). -/
def Obligations.HammerAndLiftersFinish : Prop :=
  (∀ s : State,
    (s.seq.phase = .pulse →
      exec .hammerPulseEnd s
        = .next (eventEnd s.store.unprinted
            { s with
              seq :=
                { s.seq with
                  phase := .retract, hammer := .returning
                  tapeLifter := if headIsLift s.seq then s.seq.tapeLifter.lower else s.seq.tapeLifter } }))
    ∧ (s.seq.phase ≠ .pulse → exec .hammerPulseEnd s = .next (eventEnd s.store.unprinted s))
    ∧ (s.seq.phase = .retract → s.seq.hammer = .returning →
        exec .hammerHome s
          = .next (eventEnd s.store.unprinted
              { s with
                seq :=
                  { s.seq with
                    hammer := .rest, mark := false
                    phase := if headIsLift s.seq = false ∨ s.seq.tapeLifter = .down then .rest else .retract } }))
    ∧ ((s.seq.phase ≠ .retract ∨ s.seq.hammer ≠ .returning) →
        exec .hammerHome s = .next (eventEnd s.store.unprinted s))
    ∧ (∀ a b, (s.seq.ribbonLifter = .rising ∧ a = .up ∨ s.seq.ribbonLifter = .lowering ∧ a = .down) →
        b = { s with seq := { s.seq with ribbonLifter := a, mark := false } } →
        exec (.lifterDone .ribbon) s = .next (eventEnd s.store.unprinted (settleMotion b)))
    ∧ ((s.seq.ribbonLifter = .up ∨ s.seq.ribbonLifter = .down) →
        exec (.lifterDone .ribbon) s = .next (eventEnd s.store.unprinted s))
    ∧ (s.seq.tapeLifter = .rising →
        exec (.lifterDone .tape) s
          = .next (eventEnd s.store.unprinted
              { s with
                seq :=
                  { s.seq with
                    tapeLifter := .up, mark := false
                    phase :=
                      if s.seq.phase = .tapeRising then .rest
                      else if s.seq.phase = .retract ∧ s.seq.hammer = .rest ∧ headIsLift s.seq = false then .rest
                      else s.seq.phase } }))
    ∧ (s.seq.tapeLifter = .lowering →
        exec (.lifterDone .tape) s
          = .next (eventEnd s.store.unprinted
              { s with
                seq :=
                  { s.seq with
                    tapeLifter := .down, mark := false
                    phase := if s.seq.phase = .retract ∧ s.seq.hammer = .rest then .rest else s.seq.phase } }))
    ∧ ((s.seq.tapeLifter = .up ∨ s.seq.tapeLifter = .down) →
        exec (.lifterDone .tape) s = .next (eventEnd s.store.unprinted s)))
  ∧ (∀ (n k pos : Nat) (c : Cell) (target : StrikeTarget) (mk : Bool) (js fired : List Job) (done rest : List Impression)
      (i : Impression) (s b g : State) (made : LineStore), worksHead s → b = withHeadInFlight s →
      s.seq.jobs = { kind := .strike target, marked := mk } :: js → (∀ x ∈ done, x.made = true) → i.made = false →
      (target = .cell k ∧ s.store.findCell k = some c ∧ c.position = some pos ∧ c.impressions = done ++ i :: rest
          ∧ g.store = s.store.mapCell k (fun c => { c with state := .striking })
          ∧ made = s.store.mapCell k (fun c => { c with state := .striking, impressions := makeFirst c.impressions })
          ∧ fired = s.seq.jobs
        ∨ target = .detached pos (done ++ i :: rest) ∧ g.store = s.store ∧ made = s.store
          ∧ fired = { kind := .strike (.detached pos (done ++ { i with made := true } :: rest)), marked := mk }
              :: js.map fun j => match j.kind with
                | .lift p snap true m => { j with kind := .lift p (snap ++ [{ i with made := true }]) true m }
                | _ => j) →
      g = { b with store := g.store, seq := { b.seq with ribbonLifter := s.seq.ribbonLifter.raise } } →
      makeFirst (done ++ i :: rest) = done ++ { i with made := true } :: rest
      ∧ (¬(s.seq.carriage = some (pos + i.offset) ∧ s.seq.petal = some i.petal) →
        seqLoop (n + 3) s
          = { g with
              seq := { g.seq with
                phase := .moving, carTarget := some (pos + i.offset)
                wheelMove := wheelTurn (s.seq.petal.getD 0) i.petal } })
      ∧ (s.seq.carriage = some (pos + i.offset) → s.seq.petal = some i.petal →
          (s.seq.ribbonLifter ≠ .up →
            seqLoop (n + 3) s
              = { g with seq := { g.seq with phase := .moving, carTarget := some (pos + i.offset), wheelMove := none } })
          ∧ (s.seq.ribbonLifter = .up → s.mon.levels.ribbonEnd = true →
              seqLoop (n + 3) s
                = { g with
                    mon := { s.mon with latches := s.mon.latches.withLatch .ribbonEnd }
                    seq := { g.seq with
                      mech := .suspended, suspend := { paper := false, ribbon := true, tape := false }, phase := .paused
                      tapeLifter := s.seq.tapeLifter.lower, parking := false, mark := false } })
          ∧ (s.seq.ribbonLifter = .up → s.mon.levels.ribbonEnd = false → s.mon.levels.cover = true →
              seqLoop (n + 3) s
                = { g with
                    store := made
                    seq := { g.seq with
                      jobs := fired, phase := .pulse, hammer := .driven
                      pulse := pulseTicks i.level g.seq.flightSetting } })))
  ∧ ∀ (n p : Nat) (pend mk : Bool) (js : List Job) (before lifted : List Impression) (i : Impression) (s b g : State),
      worksHead s → b = withHeadInFlight s →
      s.seq.jobs = { kind := .lift p (before ++ i :: lifted) pend lifted.length, marked := mk } :: js →
      g = { b with seq := { b.seq with ribbonLifter := s.seq.ribbonLifter.lower } } →
      (¬(s.seq.carriage = some (p + i.offset) ∧ s.seq.petal = some i.petal) →
        seqLoop (n + 3) s
          = { g with
              seq := { g.seq with
                phase := .moving, carTarget := some (p + i.offset), wheelMove := wheelTurn (s.seq.petal.getD 0) i.petal } })
      ∧ (s.seq.carriage = some (p + i.offset) → s.seq.petal = some i.petal →
          (s.seq.tapeLifter ≠ .up →
            seqLoop (n + 3) s
              = { g with seq := { g.seq with phase := .tapeRising, tapeLifter := s.seq.tapeLifter.raise } })
          ∧ (s.seq.tapeLifter = .up → s.mon.levels.tapeEnd = true →
              seqLoop (n + 3) s
                = { g with
                    mon := { s.mon with latches := s.mon.latches.withLatch .tapeEnd }
                    seq := { g.seq with
                      mech := .suspended, suspend := { paper := false, ribbon := false, tape := true }, phase := .paused
                      tapeLifter := .lowering, parking := false, mark := false } })
          ∧ (s.seq.tapeLifter = .up → s.mon.levels.tapeEnd = false → s.mon.levels.cover = true →
              seqLoop (n + 3) s
                = { g with
                    seq := { g.seq with
                      jobs := { kind := .lift p (before ++ i :: lifted) pend (lifted.length + 1), marked := mk } :: js
                      phase := .pulse, hammer := .driven
                      pulse := pulseTicks (min 7 (i.level + 2)) g.seq.flightSetting } }))

/-- A platen step (R78, R79, R89): of the paper-out feed, whose 96th step ends it with PAPER and PAPER_OUT, or with a platen count of 0 when
paper shows present; of a FEED or a CROSS, which raises its steps done and moves the platen count modulo 65536; and the last step of a FEED
leaves it at rest to complete. That a step with none of them under way changes nothing of its own is the model's choice (log 4). A FEED or a
CROSS taken or gone on with lowers the ribbon and turns the platen, a CROSS with its carriage on the way to the target. A job in flight with
nothing left to do completes and the sequencer goes on (R66, R72): its STRIKE's cell or its linked return becomes PRINTED, a CLOSED line
whose cells are all PRINTED becomes DONE (R6), the job leaves the head of the queue, a detached STRIKE fixes the pending LIFT (R77), the release
pass runs (R57), and a paper-out feed that is owed begins (R89). -/
def Obligations.PlatenStepCountsAndTurns : Prop :=
  (∀ s : State,
    (∀ n, s.seq.paperFeed = some n → n + 1 < 96 →
      exec .platenStep s
        = .next (eventEnd s.store.unprinted
            { s with seq := { s.seq with paperFeed := some (n + 1), platen := s.seq.platen + 1, mark := false } }))
    ∧ (∀ n, s.seq.paperFeed = some n → 96 ≤ n + 1 → s.mon.levels.paper = true →
        exec .platenStep s
          = .next (eventEnd s.store.unprinted
              { s with seq := { s.seq with paperFeed := none, platen := 0, mark := false } }))
    ∧ (∀ n, s.seq.paperFeed = some n → 96 ≤ n + 1 → s.mon.levels.paper = false →
        exec .platenStep s
          = .next (eventEnd s.store.unprinted
              (setLatch .paperOut
                { s with
                  seq :=
                    { s.seq with
                      paperFeed := none, platen := s.seq.platen + 1, mark := false
                      suspend := { s.seq.suspend with paper := true } } })))
    ∧ (∀ forward steps link done mk js, s.seq.paperFeed = none → s.seq.phase = .feeding → s.seq.parking = false →
        s.seq.jobs = { kind := .feed forward steps link done, marked := mk } :: js → done < steps →
        exec .platenStep s
          = .next (eventEnd s.store.unprinted
              { s with
                seq :=
                  { s.seq with
                    jobs := { kind := .feed forward steps link (done + 1), marked := mk } :: js
                    platen := if forward then s.seq.platen + 1 else s.seq.platen - 1
                    mark := false
                    phase := if steps ≤ done + 1 then .rest else .feeding } }))
    ∧ (∀ back target done edges mk js, s.seq.paperFeed = none → s.seq.phase = .crossing →
        s.seq.jobs = { kind := .cross back target done edges, marked := mk } :: js → done < back →
        exec .platenStep s
          = .next (eventEnd s.store.unprinted
              { s with
                seq :=
                  { s.seq with
                    jobs := { kind := .cross back target (done + 1) edges, marked := mk } :: js
                    platen := s.seq.platen - 1
                    mark := false
                    phase := if back ≤ done + 1 ∧ s.seq.carriage = s.seq.carTarget then .rest else .crossing } }))
    ∧ (s.seq.paperFeed = none → s.seq.phase ≠ .feeding → s.seq.phase ≠ .crossing →
        exec .platenStep s = .next (eventEnd s.store.unprinted s)))
  ∧ (∀ (n : Nat) (mk fw : Bool) (js : List Job) (steps k back target edges : Nat) (link : Option Nat) (s b : State),
      worksHead s → b = withHeadInFlight s →
      (s.seq.jobs = { kind := .feed fw steps link k, marked := mk } :: js → k < steps →
        seqLoop (n + 2) s = { b with seq := { b.seq with phase := .feeding, ribbonLifter := s.seq.ribbonLifter.lower } })
      ∧ (s.seq.jobs = { kind := .cross back target k edges, marked := mk } :: js →
          (k < back ∨ s.seq.carriage ≠ some target) →
          seqLoop (n + 2) s
            = { b with
                seq := { b.seq with
                  phase := .crossing, ribbonLifter := s.seq.ribbonLifter.lower, carTarget := some target } }))
  ∧ (∀ (n : Nat) (j : Job) (js : List Job) (s b : State), worksHead s → s.seq.inFlight = true → s.seq.jobs = j :: js →
      b = withHeadInFlight s →
      (∀ k c, j.kind = .strike (.cell k) → s.store.findCell k = some c → (∀ i ∈ c.impressions, i.made = true) →
        seqLoop (n + 1) s = seqLoop n (completeHead b))
      ∧ (∀ p l, j.kind = .strike (.detached p l) → (∀ i ∈ l, i.made = true) → seqLoop (n + 1) s = seqLoop n (completeHead b))
      ∧ (∀ p l pend k, j.kind = .lift p l pend k → l.length ≤ k → seqLoop (n + 1) s = seqLoop n (completeHead b))
      ∧ (∀ fw steps link k, j.kind = .feed fw steps link k → steps ≤ k → seqLoop (n + 1) s = seqLoop n (completeHead b))
      ∧ (∀ back target k edges, j.kind = .cross back target k edges → back ≤ k → s.seq.carriage = some target →
          seqLoop (n + 1) s
            = seqLoop n (completeHead
                { b with seq := { b.seq with ribbonLifter := s.seq.ribbonLifter.lower, carTarget := some target } })))
  ∧ ∀ (j : Job) (js : List Job) (printed : Cell → Cell) (done : Line → Line) (s u : State), s.seq.jobs = j :: js →
      (∀ c, printed c = match j.kind with
        | .strike (.cell k) | .feed _ _ (some k) _ => if c.seq = k then { c with state := .printed } else c
        | .strike (.detached _ _) | .feed _ _ none _ | .lift _ _ _ _ | .cross _ _ _ _ => c) →
      (∀ l, done l = if l.state = .closed ∧ ∀ c ∈ l.cells, c.state = .printed then { l with state := .done } else l) →
      u = { s with
        store := { s.store with
          earlier := s.store.earlier.map fun l => done { l with cells := l.cells.map printed }
          openLine := { s.store.openLine with cells := s.store.openLine.cells.map printed } }
        seq := { s.seq with
          jobs := (match j.kind with
            | .strike (.detached _ _) => js.filterMap fixedLift
            | .strike (.cell _) | .lift _ _ _ _ | .feed _ _ _ _ | .cross _ _ _ _ => js)
          inFlight := false, phase := .rest, mark := false } } →
      ((s.mon.levels.paper = true ∨ s.seq.suspend.paper = true) → completeHead s = releasePass u)
      ∧ (s.mon.levels.paper = false → s.seq.suspend.paper = false → completeHead s = startPaperFeed (releasePass u))

/-- The wheel's part of homing ends (R83, R84): petal 0 is under the hammer and the ID is kept; when the carriage part has ended too, HOMED is set
and the ID goes to the comparison of Table 7-3, whose outcomes follow. That the row ends the wheel's part from any point of it is the model's
choice (log 6), that it changes nothing outside a homing too (log 4), and that a selection of the built-in table which would replace the table
waits for a load in progress (log 44). WHEEL_WAIT begins with the homing over, a wait record of the reason, the mounted hub ID, decision NONE and
the active table, which stays in force, and WHEEL_MISMATCH or WHEEL_UNKNOWN set (R147). A load that a homing asks for waits for the bus as the
homing's own, and the homing goes on until it ends; with another load in progress nothing is asked for and the homing waits for that one (R145,
log 19). Homing that is over makes the state READY and the suspend set judged afresh; paper that is absent then counts without the feed, with
PAPER in the set, PAPER_OUT and the reach flag of the line before cleared (R84, R89). -/
def Obligations.WheelHomingEndsWithTheHubId : Prop :=
  ((∀ (id : BitVec 5) (h : Homing) (s seq0 : State), seq0 = { s with seq := { s.seq with petal := some 0, mark := false } } →
    (s.seq.homing = some h → (∀ k, h.wheel ≠ .ended k) → h.carriage ≠ .ended →
      exec (.wheelHomingEnd id) s
        = .next (eventEnd s.store.unprinted
            { seq0 with seq := { seq0.seq with homing := some { h with wheel := .ended id.toNat } } }))
    ∧ (s.seq.homing = some h → (∀ k, h.wheel ≠ .ended k) → h.carriage = .ended →
        exec (.wheelHomingEnd id) s
          = .next (eventEnd s.store.unprinted
              (compareWheel id.toNat
                (setLatch .homed
                  { seq0 with seq := { seq0.seq with homing := some { h with wheel := .ended id.toNat } } }))))
    ∧ ((s.seq.homing = none ∨ ∃ k, s.seq.homing = some h ∧ h.wheel = .ended k) →
        exec (.wheelHomingEnd id) s = .next s))
  ∧ (∀ (hub : Nat) (s : State) (quiet : Prop), (quiet ↔ s.seq.jobs = [] ∧ s.store.anyHeld = false) →
      (s.mem.headerBusy = true → (s.mem.provisional = true ∨ hub ≠ s.mem.boundId ∧ quiet) →
        compareWheel hub s = { s with seq := { s.seq with homing := none, homingWait := .header hub } })
      ∧ (s.mem.headerBusy = false → s.mem.provisional = true → tableSource s.mem hub = .builtIn →
          s.mem.active = builtInTable →
          compareWheel hub s = homingOver { s with mem := { s.mem with provisional := false, boundId := 0 } })
      ∧ (s.mem.headerBusy = false → s.mem.provisional = true → tableSource s.mem hub = .builtIn →
          s.mem.active ≠ builtInTable → s.mem.loadBusy = false →
          ∃ u, u = replaceTable builtInTable s
            ∧ compareWheel hub s = homingOver { u with mem := { u.mem with provisional := false, boundId := 0 } })
      ∧ (s.mem.headerBusy = false → (s.mem.provisional = true ∨ hub ≠ s.mem.boundId ∧ quiet) →
          tableSource s.mem hub = .builtIn → s.mem.active ≠ builtInTable → s.mem.loadBusy = true →
          compareWheel hub s = { s with seq := { s.seq with homing := none, homingWait := .otherLoad hub } })
      ∧ (s.mem.headerBusy = false → s.mem.provisional = true → tableSource s.mem hub = .rom →
          compareWheel hub s = askHomingLoad hub s)
      ∧ (s.mem.headerBusy = false → s.mem.provisional = true → tableSource s.mem hub = .absent →
          compareWheel hub s = enterWheelWait .unknown hub { s with mem := { s.mem with provisional := false } })
      ∧ (s.mem.provisional = false → hub = s.mem.boundId → compareWheel hub s = homingOver s)
      ∧ (s.mem.headerBusy = false → s.mem.provisional = false → hub ≠ s.mem.boundId → quiet →
          (tableSource s.mem hub = .rom → compareWheel hub s = askHomingLoad hub s)
          ∧ (tableSource s.mem hub = .builtIn → (s.mem.active = builtInTable ∨ s.mem.loadBusy = false) →
              ∃ u, u = selectBuiltIn s
                ∧ compareWheel hub s
                  = homingOver (setLatch .wheelChanged { u with mem := { u.mem with boundId := 0 } }))
          ∧ (tableSource s.mem hub = .absent → compareWheel hub s = enterWheelWait .unknown hub s))
      ∧ (s.mem.provisional = false → hub ≠ s.mem.boundId → ¬quiet →
          compareWheel hub s = enterWheelWait .mismatch hub s)))
  ∧ (∀ (hub : Nat) (s : State),
      (enterWheelWait .mismatch hub s
        = { s with
            mon := { s.mon with latches := s.mon.latches.withLatch .wheelMismatch }
            seq := { s.seq with mech := .wheelWait, homing := none, homingWait := .none }
            mem := { s.mem with wait := some { reason := .mismatch, hub := hub, decision := none, table := s.mem.active } } })
      ∧ (enterWheelWait .unknown hub s
          = { s with
              mon := { s.mon with latches := s.mon.latches.withLatch .wheelUnknown }
              seq := { s.seq with mech := .wheelWait, homing := none, homingWait := .none }
              mem := { s.mem with wait := some { reason := .unknown, hub := hub, decision := none, table := s.mem.active } } })
      ∧ (s.mem.loadBusy = false →
          askHomingLoad hub s
            = { s with
                seq := { s.seq with homing := none, homingWait := .ownLoad hub }
                mem := { s.mem with loadWaiting := some { id := hub, assignHub := none, homing := true } } })
      ∧ (s.mem.loadBusy = true →
          askHomingLoad hub s = { s with seq := { s.seq with homing := none, homingWait := .otherLoad hub } })
      ∧ (s.mem.active = builtInTable → selectBuiltIn s = s)
      ∧ (s.mem.active ≠ builtInTable → selectBuiltIn s = replaceTable builtInTable s)
      ∧ (s.mem.loadBusy = true ↔
          s.mem.loadWaiting ≠ none ∨ ∃ req m, s.mem.transaction = some { job := .load req, mark := m }))
  ∧ ∀ (s : State) (earlier : List Line),
      (s.store.earlier = [] ∧ earlier = []
        ∨ ∃ ls l, s.store.earlier = ls ++ [l] ∧ earlier = ls ++ [{ l with reach := false }]) →
      (s.mon.levels.paper = true →
        homingOver s
          = { s with
              seq := { s.seq with
                mech := .ready, homing := none, homingWait := .none
                suspend := { paper := false, ribbon := false, tape := false } } })
      ∧ (s.mon.levels.paper = false →
          homingOver s
            = { s with
                store := { s.store with earlier := earlier }
                mon := { s.mon with latches := s.mon.latches.withLatch .paperOut }
                seq := { s.seq with
                  mech := .ready, homing := none, homingWait := .none
                  suspend := { paper := true, ribbon := false, tape := false } } })

/-! ### Sensors, power, display timers -/

/-- A change of a filtered sensor level (R170, R171, R89, R91, R92): the level is held, a selected edge with change enable sets the sensor's
latch, and in RUNNING the Print Sequencer acts. An opened cover stops all motion and INTERLOCKS: no motion is left, both positions are unknown,
the lifters are down at once (the model's choice, log 52), the wait record is discarded, the job in flight stays at the head, a STRIKE that has
made no impression returns its cell to QUEUED; in OFF it only INTERLOCKS, in FAULT, STANDBY and INTERLOCKED it is noted. A cover closed in
INTERLOCKED homes afresh (the start of homing with a sensor already showing: log 25). Absent paper starts the paper-out feed at once without a job
in flight or with it paused (when the reach flag is cleared: log 38), and owes it to the completion of a job in flight; present paper ends a paper
suspend. In a homing the carriage-home sensor turns and ends the carriage part (R82), the wheel-index sensor begins the reading revolution (R83),
and the last part to end completes the homing (R84). Ribbon and tape are judged as the sequencer goes on. In STANDBY a selected edge with wake
enable wakes the part and any other is only noted. In READY, BUSY and SUSPENDED a paper-out feed or a reason makes the state SUSPENDED with no job
taken and no park move: RIBBON is in the set while the ribbon shows its end and the head job is a STRIKE not started or paused, TAPE likewise for
a LIFT, and the entry of either sets RIBBON_END or TAPE_END (R65, R75, R90); the pause itself is stated with the impressions. In the other states
the set is judged without a latch (log 11). -/
def Obligations.SensorChangesActAndLatch : Prop :=
  ((∀ (n : Sensor) (v : Bool) (s a : State),
    (sensorLevel s.mon.levels n = v → exec (.sensorLevelChange n v) s = .next s)
    ∧ (sensorLevel s.mon.levels n ≠ v →
        a = { s with
          mon :=
            { s.mon with
              levels := withSensorLevel s.mon.levels v n
              latches :=
                if (s.mon.config.get n).edge.selects v = true ∧ (s.mon.config.get n).change = true then
                  s.mon.latches.withLatch (changeLatch n)
                else s.mon.latches } } →
        (s.mon.power = .running →
          exec (.sensorLevelChange n v) s = .next (eventEnd s.store.unprinted (sensorActs n v a)))
        ∧ (s.mon.power = .standby → (s.mon.config.get n).edge.selects v = true → (s.mon.config.get n).wake = true →
            exec (.sensorLevelChange n v) s = .next (eventEnd s.store.unprinted (wake a)))
        ∧ (s.mon.power = .standby →
            ((s.mon.config.get n).edge.selects v = false ∨ (s.mon.config.get n).wake = false) →
            exec (.sensorLevelChange n v) s = .next (noticeCheck a))))
  ∧ (∀ (s : State) (stopped : Sequencer),
      stopped
        = { s.seq with
            mech := .interlocked, carriage := none, petal := none, phase := .rest, hammer := .rest
            ribbonLifter := .down, tapeLifter := .down, parking := false, paperFeed := none, carTarget := none
            wheelMove := none, mark := false, homing := none, homingWait := .none } →
      (s.seq.mech = .interlocked → sensorActs .cover true s = beginHoming true s)
      ∧ (s.seq.mech ≠ .interlocked → sensorActs .cover true s = s)
      ∧ ((beginHoming true s).seq.mech = .homing ∧ (beginHoming true s).seq.carriage = none
          ∧ (beginHoming true s).seq.homing
            = some
                { carriage := if s.mon.levels.carriageHome then .rightward 0 else .leftward 0
                  wheel := if s.mon.levels.wheelIndex then .reading 0 else .seeking 0 }
          ∧ (beginHoming true s).seq.jobs = s.seq.jobs ∧ (beginHoming true s).seq.inFlight = s.seq.inFlight)
      ∧ ((s.seq.mech = .homing ∨ s.seq.mech = .ready ∨ s.seq.mech = .busy ∨ s.seq.mech = .suspended
            ∨ s.seq.mech = .wheelWait) →
          (∀ n mk js, s.seq.inFlight = true → s.seq.jobs = { kind := .strike (.cell n), marked := mk } :: js →
            sensorActs .cover false s
              = { s with
                  store :=
                    s.store.mapCell n fun c =>
                      if c.impressions.any (·.made) = true then c else { c with state := .queued }
                  seq := stopped
                  mem := { s.mem with wait := none } })
          ∧ ((s.seq.inFlight = false ∨ ∀ n mk js, s.seq.jobs ≠ { kind := .strike (.cell n), marked := mk } :: js) →
              sensorActs .cover false s = { s with seq := stopped, mem := { s.mem with wait := none } }))
      ∧ (s.seq.mech = .off → sensorActs .cover false s = { s with seq := { s.seq with mech := .interlocked } })
      ∧ ((s.seq.mech = .interlocked ∨ s.seq.mech = .fault ∨ s.seq.mech = .standby) → sensorActs .cover false s = s))
  ∧ (∀ (s : State) (earlier : List Line),
      (s.store.earlier = [] ∧ earlier = []
        ∨ ∃ ls l, s.store.earlier = ls ++ [l] ∧ earlier = ls ++ [{ l with reach := false }]) →
      ((s.seq.mech = .ready ∨ s.seq.mech = .busy ∨ s.seq.mech = .suspended) →
        (s.seq.inFlight = false ∨ s.seq.phase = .paused) → s.seq.paperFeed = none → s.seq.suspend.paper = false →
        sensorActs .paper false s
          = { s with
              store := { s.store with earlier := earlier }
              seq := { s.seq with paperFeed := some 0, mech := .suspended, parking := false, mark := false } })
      ∧ ((s.seq.inFlight = true ∧ s.seq.phase ≠ .paused ∨ s.seq.paperFeed ≠ none ∨ s.seq.suspend.paper = true
            ∨ s.seq.mech ≠ .ready ∧ s.seq.mech ≠ .busy ∧ s.seq.mech ≠ .suspended) →
          sensorActs .paper false s = s)
      ∧ (s.seq.jobs ≠ [] → s.seq.suspend.paper = false →
          (s.mon.levels.paper = false →
            (completeHead s).seq.paperFeed = some 0 ∧ (completeHead s).seq.mech = .suspended
            ∧ (completeHead s).seq.inFlight = false ∧ (completeHead s).seq.mark = false
            ∧ ∀ l, (completeHead s).store.earlier.getLast? = some l → l.reach = false)
          ∧ (s.mon.levels.paper = true →
              (completeHead s).seq.paperFeed = s.seq.paperFeed ∧ (completeHead s).seq.mech = s.seq.mech))
      ∧ (s.seq.suspend.paper = true →
          sensorActs .paper true s
            = { s with seq := { s.seq with suspend := { s.seq.suspend with paper := false }, platen := 0 } })
      ∧ (s.seq.suspend.paper = false → sensorActs .paper true s = s))
  ∧ (∀ (s : State) (v : Bool), sensorActs .ribbonEnd v s = s ∧ sensorActs .tapeEnd v s = s)
  ∧ (∀ (s : State) (h : Homing) (n : Nat) (v : Bool),
      (s.seq.homing = none → sensorActs .carriageHome v s = s ∧ sensorActs .wheelIndex v s = s)
      ∧ (s.seq.homing = some h →
          (h.carriage = .leftward n → (∀ k, h.wheel ≠ .ended k) →
            sensorActs .carriageHome true s
              = { s with seq := { s.seq with carriage := some 0, homing := some { h with carriage := .ended } } })
          ∧ (∀ k, h.carriage = .leftward n → h.wheel = .ended k →
              sensorActs .carriageHome true s
                = compareWheel k
                    (setLatch .homed
                      { s with
                        seq := { s.seq with carriage := some 0, homing := some { h with carriage := .ended }, mark := false } }))
          ∧ (h.carriage = .rightward n →
              sensorActs .carriageHome false s
                = { s with seq := { s.seq with homing := some { h with carriage := .leftward 0 } } })
          ∧ ((h.carriage = .leftward n ∧ v = false ∨ h.carriage = .rightward n ∧ v = true ∨ h.carriage = .ended) →
              sensorActs .carriageHome v s = s)
          ∧ (h.wheel = .seeking n →
              sensorActs .wheelIndex true s
                = { s with seq := { s.seq with petal := some 0, homing := some { h with wheel := .reading 0 } } })
          ∧ ((h.wheel = .seeking n ∧ v = false ∨ h.wheel = .reading n ∨ h.wheel = .ended n) →
              sensorActs .wheelIndex v s = s))))
  ∧ (∀ (n : Nat) (s t : State), sequences s → t = seqLoop (n + 1) s →
      (s.seq.paperFeed ≠ none ∨ s.seq.suspend.paper = true ∨ ribbonReason s ∨ tapeReason s) →
      t.seq.mech = .suspended ∧ t.seq.suspend.paper = s.seq.suspend.paper
      ∧ (t.seq.suspend.ribbon = true ↔ ribbonReason s) ∧ (t.seq.suspend.tape = true ↔ tapeReason s)
      ∧ (∀ l, t.mon.latches.has l = true ↔ s.mon.latches.has l = true
          ∨ l = .ribbonEnd ∧ ribbonReason s ∧ s.seq.suspend.ribbon = false
          ∨ l = .tapeEnd ∧ tapeReason s ∧ s.seq.suspend.tape = false)
      ∧ (s.seq.paperFeed = none → t.seq.parking = false ∧ t.seq.mark = false)
      ∧ t.seq.jobs = s.seq.jobs ∧ t.seq.inFlight = s.seq.inFlight ∧ t.seq.phase = s.seq.phase
      ∧ t.seq.carriage = s.seq.carriage ∧ t.seq.petal = s.seq.petal ∧ t.seq.paperFeed = s.seq.paperFeed
      ∧ t.store = s.store)
  ∧ ∀ (n : Nat) (s t : State), ¬sequences s → s.seq.mech ≠ .off → t = seqLoop (n + 1) s →
      t.seq.suspend.paper = s.seq.suspend.paper
      ∧ (t.seq.suspend.ribbon = true ↔ ribbonReason s) ∧ (t.seq.suspend.tape = true ↔ tapeReason s)
      ∧ { t with seq := { t.seq with suspend := s.seq.suspend } } = s

/-- The idle countdown and standby (R179, R180, R94, R167): an expiry of the 1 s timer lowers a running countdown, and at its last second the
part enters standby: the STANDBY latch, the beeper silent, the mechanism without drive and the petal unknown, the display OFF with its
switching-off frame. A stopped countdown changes nothing. STANDBY_ENTRY alone is the last expiry (the model's reading, log 7). The countdown is
judged at the end of every event (log 29): it starts from the full value when its conditions come to hold, runs on while they hold and is
stopped otherwise (R179). A wake makes the part RUNNING with the WAKE latch and the display ON, its frame to be sent again at once, and homes
the wheel with the carriage position kept, or INTERLOCKS with the cover open (R181, R95, R167; an index that already shows counts as seen,
log 25; a switching-off frame still owed is dropped, log 41). -/
def Obligations.IdleCountdownEntersStandby : Prop :=
  (∀ s : State,
    (s.mon.idle = none → exec .idleTimerExpiry s = .next s ∧ exec .standbyEntry s = .next s)
    ∧ (∀ n, s.mon.idle = some n → 2 ≤ n →
        exec .idleTimerExpiry s = .next { s with mon := { s.mon with idle := some (n - 1) } }
        ∧ exec .standbyEntry s = .next s)
    ∧ (∀ n, s.mon.idle = some n → n ≤ 1 →
        ∃ t, exec .idleTimerExpiry s = .next t ∧ exec .standbyEntry s = .next t
          ∧ t.mon.power = .standby ∧ t.mon.idle = none ∧ t.mon.beeper = none ∧ t.mon.latches.has .standby = true
          ∧ t.seq.mech = .standby ∧ t.seq.petal = none ∧ t.seq.carriage = s.seq.carriage
          ∧ t.seq.ribbonLifter = .down ∧ t.seq.tapeLifter = .down ∧ t.seq.jobs = s.seq.jobs
          ∧ t.disp.state = .off ∧ t.disp.overlay = none ∧ t.disp.frame = blankFrame
          ∧ (s.disp.sending = none → t.disp.sending = some (displayBytes false blankFrame))
          ∧ (s.disp.sending ≠ none → t.disp.sending = s.disp.sending ∧ t.disp.offOwed = true)
          ∧ t.link.standbyTx = t.link.output.length ∧ t.store = s.store ∧ t.spell = s.spell ∧ t.mem = s.mem))
  ∧ (∀ (s : State) (holds : Prop),
      (holds ↔ s.mon.idleMinutes ≠ 0 ∧ s.mon.power = .running ∧ s.seq.jobs = [] ∧ (∀ c ∈ s.store.cells, c.state ≠ .held)
        ∧ s.mem.transaction = none ∧ s.mem.headerWaiting = false ∧ s.mem.loadWaiting = none ∧ s.mem.dictWaiting = false
        ∧ s.mem.nv = [] ∧ s.link.drain = none ∧ s.seq.mech = .ready ∧ s.seq.parking = false) →
      (¬holds → refreshIdle s = { s with mon := { s.mon with idle := none } })
      ∧ (holds → s.mon.idle = none →
          refreshIdle s = { s with mon := { s.mon with idle := some (s.mon.idleMinutes * 60) } })
      ∧ (holds → s.mon.idle ≠ none → refreshIdle s = s))
  ∧ ∀ s : State,
      wake s
        = { s with
            mon := { s.mon with power := .running, latches := s.mon.latches.withLatch .wake }
            disp := { s.disp with state := .on, blinkOn := true, dirty := true, gap := true, offOwed := false }
            link := { s.link with standbyTx := 0 }
            seq :=
              if s.mon.levels.cover = true then
                { s.seq with
                  mech := .homing, phase := .rest, hammer := .rest, ribbonLifter := .down, tapeLifter := .down
                  parking := false, paperFeed := none, carTarget := none, wheelMove := none, mark := false
                  homingWait := .none, petal := if s.mon.levels.wheelIndex then some 0 else none
                  homing :=
                    some { carriage := .ended, wheel := if s.mon.levels.wheelIndex then .reading 0 else .seeking 0 } }
              else { s.seq with mech := .interlocked } }

/-- The blink timer, the display send and the gap timer (R162, R163, R164, R167): the blink phase turns while the display is ON; a send begins
with the link IDLE when the frame is dirty and the gap has passed in STARTING or ON, or, without waiting for the gap (log 21), for an owed
switching-off frame; it takes the frame and clears both flags; it ends with the link IDLE; the gap timer sets the gap flag. -/
def Obligations.DisplayTimersAndSends : Prop :=
  ∀ s : State,
    (s.disp.state = .on →
      exec .blinkTimerExpiry s = .next (refreshDisplay { s with disp := { s.disp with blinkOn := !s.disp.blinkOn } }))
    ∧ (s.disp.state ≠ .on → exec .blinkTimerExpiry s = .next s)
    ∧ (s.disp.sending = none → s.disp.state ≠ .off → s.disp.offOwed = false → s.disp.dirty = true → s.disp.gap = true →
        exec .displaySendBegin s
          = .next { s with
              disp := { s.disp with sending := some (displayBytes true s.disp.frame), dirty := false, gap := false } })
    ∧ (s.disp.sending = none → s.disp.state = .off → s.disp.offOwed = true →
        exec .displaySendBegin s
          = .next { s with
              disp :=
                { s.disp with
                  sending := some (displayBytes false s.disp.frame), dirty := false, gap := false, offOwed := false } })
    ∧ ((s.disp.sending ≠ none
          ∨ s.disp.offOwed = false ∧ (s.disp.dirty = false ∨ s.disp.gap = false ∨ s.disp.state = .off)) →
        exec .displaySendBegin s = .next s)
    ∧ exec .displaySendEnd s = .next { s with disp := { s.disp with sending := none } }
    ∧ exec .gapTimerExpiry s = .next { s with disp := { s.disp with gap := true } }

/-! ### Resets -/

/-- RESET (R193, R97, R29, R140, R157, R169, R182, R62): acknowledged first, then every block is reset: the store empty with one fresh
line, the queue and the suspend set empty, both positions unknown (but for a wheel whose index shows when homing begins, which counts as
seen: log 25) and homing begun or INTERLOCKED, the checks and flags gone and a header read asked for (a lookup on the bus going on as a
stale read: log 35), no wait record, the overlay ended, latches and pending set clear, the waiting frames gone, an outstanding DRAIN
refused RESET behind the ACK. The settings, the user list, the tables, the masks, an outstanding SAVE-SETTINGS, the error count and the
receiver are kept. -/
def Obligations.WarmResetEmptiesThePart : Prop :=
  ∀ (tag : Byte) (s : State), Taken s →
    ∃ t, exec (.reset tag) s = .next t
      ∧ t.store.earlier = [] ∧ t.store.openLine = freshLine s.store.settings ∧ t.store.nextSeq = 1
      ∧ t.store.nextWord = 1 ∧ t.store.openWord = none ∧ t.store.pendingApostrophe = none
      ∧ t.store.settings = s.store.settings
      ∧ t.seq.jobs = [] ∧ t.seq.inFlight = false ∧ t.seq.suspend = {} ∧ t.seq.carriage = none
      ∧ t.seq.petal = (if s.mon.levels.cover && s.mon.levels.wheelIndex then some 0 else none)
      ∧ t.seq.mech = (if s.mon.levels.cover then .homing else .interlocked) ∧ t.seq.platen = s.seq.platen
      ∧ t.seq.setting = s.seq.setting
      ∧ t.spell.queue = [] ∧ t.spell.flagged = [] ∧ t.spell.availability = .retrying
      ∧ t.spell.userList = s.spell.userList ∧ t.spell.enabled = s.spell.enabled
      ∧ (s.spell.lookup = none → t.spell.lookup = none)
      ∧ (∀ k, s.spell.lookup = some k →
          (k.stale = true → t.spell.lookup = some k) ∧ (k.stale = false → s.mem.dictWaiting = true → t.spell.lookup = none)
          ∧ (k.stale = false → s.mem.dictWaiting = false → t.spell.lookup = some { k with stale := true }))
      ∧ t.mem.wait = none ∧ t.mem.active = s.mem.active ∧ t.mem.boundId = s.mem.boundId
      ∧ t.mem.header = s.mem.header ∧ t.mem.headerBusy = true
      ∧ t.disp.overlay = none ∧ t.disp.overlayTimer = none ∧ t.disp.winStart = 0
      ∧ t.mon.latches = GroupBits.none ∧ t.mon.pendingSet = {} ∧ t.mon.beeper = none
      ∧ t.mon.masks = s.mon.masks ∧ t.mon.config = s.mon.config ∧ t.mon.levels = s.mon.levels
      ∧ t.link.input = [] ∧ t.link.hand = none ∧ t.link.drain = none ∧ t.link.save = s.link.save
      ∧ t.link.errors = s.link.errors ∧ t.link.receiver = s.link.receiver
      ∧ t.link.output
        = s.link.output ++ [{ kind := 0xA0, tag := tag, payload := [] }]
          ++ (match s.link.drain with
            | none => []
            | some d => [{ kind := 0xE1, tag := d, payload := [18, 0x12] }])

/-- POWER_ON_RESET (R194, R182, R96, R156, R168): whatever the part was, every block takes its power-on values, BSEL and the sensor lines are read,
the header read is on the bus with the two record reads behind it, and full homing begins with the cover closed, INTERLOCKED with it
open. Only the model's queue of commands stays. The power-on values that the manual does not give are the model's choice (logs 28 and 39),
and so are the empty OPEN line that stands until the settings read ends (log 9) and that the first grant and the start of homing belong to
this row (log 36). -/
def Obligations.PowerOnResetStartsAfresh : Prop :=
  ∀ (bsel : Bool) (v : SensorLevels) (s r : State),
    r = { State.reset with
      pending := s.pending
      mon := { State.reset.mon with levels := v }
      link := { State.reset.link with highBaud := bsel }
      mem :=
        { State.reset.mem with headerWaiting := false, transaction := some { job := .header, mark := false } } } →
    (v.cover = true → exec (.powerOnReset bsel v) s = .next (beginHoming true r))
    ∧ (v.cover = false →
        exec (.powerOnReset bsel v) s = .next { r with seq := { r.seq with mech := .interlocked } })

/-! ### Rules of one function -/

/-- The wheel turns by the shorter way, a half-turn clockwise, 4 steps a petal (R73, Table 4-3). The hammer pulse is 10 + 4 × level +
6 × (setting − 1) ticks, clamped to 10..63, never shorter for a higher level or setting; a LIFT strikes two levels higher, at most
level 7 (R74). -/
def Obligations.WheelTurnAndHammerPulse : Prop :=
  (∀ c t : Nat, c < 100 → t < 100 →
     (c = t → wheelTurn c t = none)
     ∧ (c ≠ t →
         ∃ m, wheelTurn c t = some m ∧ m.target = t ∧ 4 ≤ m.stepsLeft ∧ m.stepsLeft ≤ 200
           ∧ (m.clockwise = true → (c + m.stepsLeft / 4) % 100 = t)
           ∧ (m.clockwise = false → (t + m.stepsLeft / 4) % 100 = c ∧ m.stepsLeft < 200)
           ∧ m.stepsLeft % 4 = 0))
  ∧ (∀ level setting : Nat, 1 ≤ setting →
    10 ≤ pulseTicks level setting ∧ pulseTicks level setting ≤ 63
      ∧ (10 + 4 * level + 6 * (setting - 1) ≤ 63 → pulseTicks level setting = 10 + 4 * level + 6 * (setting - 1))
      ∧ pulseTicks level setting ≤ pulseTicks (level + 1) setting
      ∧ pulseTicks level setting ≤ pulseTicks level (setting + 1)
      ∧ pulseTicks (liftLevel level) setting = pulseTicks (min 7 (level + 2)) setting)
  ∧ pulseTicks 4 2 = 32 ∧ pulseTicks (liftLevel 6) 2 = 44 ∧ pulseTicks 7 4 = 56

/-- The window keeps the cursor (R159): after the two tests the cursor's frame position is between 1 and 30, whatever the start was. -/
def Obligations.WindowKeepsTheCursor : Prop :=
  ∀ cursor start : Nat, windowStart cursor start ≤ cursor ∧ cursor - windowStart cursor start + 1 ≤ 30

/-- The release pass (R55, R56, R57): after it every released cell of the store stands before every HELD one when that was so before, the queue
holds at most 256 jobs when it did, and the first HELD cell left has a hold reason or the queue is full. A cell it releases takes the state of
Table 3-2, keeps a position it has, and carries the impression list of R32 to R36, built from the active table (in WHEEL_WAIT too: log 50): the
glyph or its base and accent, each followed by its bold repeat, then the underscores, without their repeats when the list would pass 8 (codes on
no petal are left out). A cell without a position takes the end of the escapement of the cell before it, its gap extra counted, or the left margin
(R56, R37, R31). The jobs of Table 3-2 stand in entry order at the tail of the queue, marked when the cell has a drain mark: a STRIKE of the
cell's sequence, or for a return a FEED forward by its line's spacing, linked to the return. (That what is left out does not count towards the 8
is the model's choice, log 46, and that underscores alone may pass 8 on a table with a space width outside Table 7-1 too, log 51.) -/
def Obligations.ReleasePassKeepsTheOrder : Prop :=
  ((∀ s t : State, t = releasePass s → releasedFirst s.store.cells = true → s.seq.jobs.length ≤ 256 →
    releasedFirst t.store.cells = true ∧ t.seq.jobs.length ≤ 256
      ∧ ∀ c, t.store.cells.find? (fun c => c.state == .held) = some c →
          c.holds ≠ {} ∨ t.seq.jobs.length = 256)
  ∧ (∀ s t : State, t = releasePass s →
      t.store.cells.length = s.store.cells.length
      ∧ ∀ (i : Nat) (c d : Cell), s.store.cells[i]? = some c → t.store.cells[i]? = some d →
          ((c.state ≠ .held ∨ d.state = .held) → d = c)
          ∧ (c.state = .held → d.state ≠ .held →
              c.holds = { word := false, line := false, decimal := false } ∧ d.shape = c.shape ∧ d.drainMark = c.drainMark
              ∧ d.mark = c.mark ∧ d.position.isSome = true
              ∧ (c.position ≠ none → d.position = c.position)
              ∧ d.impressions = (if c.strikes then buildImpressions s.mem.active c else [])
              ∧ d.state = (if c.isReturn = true ∨ d.impressions ≠ [] then .queued else .printed)))
  ∧ (∀ (t : WheelTable) (c : Cell) (glyph under : List Impression) (u k : Nat),
      (c.kind ≠ .glyph → glyph = []) →
      (c.kind = .glyph →
        (∀ n p, t.petalOf c.code = some (n, p) → glyph = [{ petal := n, offset := 0, level := p.level, made := false }])
        ∧ (∀ m, t.petalOf c.code = none → t.compositionOf c.code = some m →
            glyph = struck t 0 m.base ++ struck t 0 m.accent)
        ∧ (t.petalOf c.code = none → t.compositionOf c.code = none → glyph = [])) →
      u = (match t.kind with | .p10 => 12 | .p12 => 10 | .p15 => 8 | .ps => ((t.petalOf t.underscore).map (·.2.width)).getD 0) →
      k = (c.width + u - 1) / u →
      (c.underline = false → under = []) →
      (c.underline = true →
        under
          = (if c.width ≤ u then struck t 0 t.underscore
            else (List.range k).flatMap fun i => struck t (min (i * u) (c.width - u)) t.underscore)) →
      (c.bold = false → buildImpressions t c = glyph ++ under)
      ∧ (c.bold = true → 2 * (glyph.length + under.length) ≤ 8 →
          buildImpressions t c = glyph.flatMap twice ++ under.flatMap twice)
      ∧ (c.bold = true → 8 < 2 * (glyph.length + under.length) →
          buildImpressions t c = glyph.flatMap twice ++ under)))
  ∧ ∀ s t : State, t = releasePass s →
      t.seq
        = { s.seq with
            jobs :=
              s.seq.jobs ++ (s.store.lines.zip t.store.lines).flatMap fun p =>
                (p.1.cells.zip p.2.cells).filterMap fun q => jobOfRelease p.1.spacing q.1 q.2 }
      ∧ t.store.lines.length = s.store.lines.length
      ∧ ∀ (k i : Nat) (l m : Line) (c d : Cell), s.store.lines[k]? = some l → t.store.lines[k]? = some m →
          l.cells[i]? = some c → m.cells[i]? = some d → c.state = .held → d.state ≠ .held → c.position = none →
          (i = 0 → d.position = some l.left)
          ∧ ∀ j e p, i = j + 1 → m.cells[j]? = some e → e.position = some p →
              d.position = some (p + e.width + gapExtra l j)

/-- What no event of the mechanism, of the memory link (but for a power-on record read) and of a sensor changes: the text and the settings of the Line
Store, the words and the enable of spelling, the impression setting, the sensor configuration, the masks, the lamp assignments, the
input buffer and the request in hand. -/
def Obligations.MachineEventsKeepTextAndSettings : Prop :=
  ∀ (c : Instr) (s t : State),
    (c = .stall ∨ (∃ a, c = .encoderEdge a) ∨ c = .motionSettled ∨ c = .hammerPulseEnd ∨ c = .hammerHome
      ∨ (∃ l, c = .lifterDone l) ∨ c = .platenStep ∨ c = .parkMoveDone ∨ (∃ id, c = .wheelHomingEnd id)
      ∨ (∃ n v, c = .sensorLevelChange n v) ∨ (∃ b, c = .headerReadEnd b) ∨ (∃ b, c = .tableLoadEnd b)
      ∨ (∃ b, c = .bucketReadEnd b) ∨ (∃ b, c = .directoryReadEnd b) ∨ c = .pageWriteEnd
      ∨ ∃ b, c = .pageReadbackEnd b) →
    exec c s = .next t →
    t.store.kept = s.store.kept ∧ t.spell.userList = s.spell.userList ∧ t.spell.enabled = s.spell.enabled
      ∧ t.seq.setting = s.seq.setting ∧ t.mon.config = s.mon.config ∧ t.mon.masks = s.mon.masks
      ∧ t.mon.lamps.map (·.assignment) = s.mon.lamps.map (·.assignment) ∧ t.mon.idleMinutes = s.mon.idleMinutes
      ∧ t.link.input = s.link.input ∧ t.link.hand = s.link.hand ∧ t.pending = s.pending
end

