-- ==== Sys2Proof/Laws/Kept.lean ====
section
/-! SUPPORT. What each shared operation leaves alone, as `State.kept`: one lemma per operation, up to the end of an
event. -/

namespace Sys2Proof.Machine

/-! ### Cells and lines -/

theorem map_shape_map (f : Cell → Cell) (hf : ∀ c, (f c).shape = c.shape) (cs : List Cell) :
    (cs.map f).map Cell.shape = cs.map Cell.shape := by
  simp [List.map_map, Function.comp_def, hf]

theorem shape_mapCells (f : Cell → Cell) (hf : ∀ c, (f c).shape = c.shape) (l : Line) :
    (Line.mapCells f l).shape = l.shape := by
  simp [Line.shape, Line.mapCells, hf, Function.comp_def]

theorem storeKept_mapCells (f : Cell → Cell) (hf : ∀ c, (f c).shape = c.shape) (s : LineStore) :
    (s.mapCells f).kept = s.kept := by
  simp only [LineStore.kept, LineStore.mapCells, LineStore.mapLines, List.map_map, Function.comp_def,
    shape_mapCells f hf]
  rfl

theorem storeKept_mapCell (n : Nat) (f : Cell → Cell) (hf : ∀ c, (f c).shape = c.shape) (s : LineStore) :
    (s.mapCell n f).kept = s.kept :=
  storeKept_mapCells _ (fun c => by by_cases h : c.seq = n <;> simp [h, hf]) s

/-- A change of the store that keeps its `kept` part, and of nothing else. -/
theorem kept_withStore {s : State} {st : LineStore} (h : st.kept = s.store.kept) :
    ({ s with store := st } : State).kept = s.kept := by
  simp only [State.kept, h]

theorem shape_settleDone (l : Line) : l.settleDone.shape = l.shape := by
  unfold Line.settleDone; split <;> rfl

theorem storeKept_settleDone (s : LineStore) : s.settleDone.kept = s.kept := by
  simp [LineStore.settleDone, LineStore.kept, Function.comp_def, shape_settleDone]

/-! ### Latches, notices, lamps, countdown, display -/

@[simp] theorem kept_setLatch (l : Latch) (s : State) : (setLatch l s).kept = s.kept := rfl

@[simp] theorem kept_setLatchIf (b : Bool) (l : Latch) (s : State) : (setLatchIf b l s).kept = s.kept := by
  cases b <;> rfl

@[simp] theorem kept_noticeCheck (s : State) : (noticeCheck s).kept = s.kept := by
  simp only [noticeCheck]; split <;> rfl

@[simp] theorem kept_judgeTypeAhead (n : Nat) (s : State) : (judgeTypeAhead n s).kept = s.kept := by
  simp [judgeTypeAhead]

@[simp] theorem kept_drainCheck (s : State) : (drainCheck s).kept = s.kept := by
  unfold drainCheck
  split
  · rfl
  · split
    · rfl
    · exact kept_withStore (s := s)
        (storeKept_mapCells (fun c => { c with drainMark := false }) (fun _ => rfl) s.store)

@[simp] theorem kept_refreshLamps (s : State) : (refreshLamps s).kept = s.kept := by
  simp [refreshLamps, State.kept, Monitor.kept, driveLamp, Function.comp_def]

@[simp] theorem kept_refreshIdle (s : State) : (refreshIdle s).kept = s.kept := rfl

@[simp] theorem kept_refreshDisplay (s : State) : (refreshDisplay s).kept = s.kept := rfl

/-! ### The release pass -/

theorem shape_releaseCell (t : WheelTable) (sp e : Nat) (c : Cell) : (releaseCell t sp e c).1.shape = c.shape := by
  simp only [releaseCell]
  repeat' split
  all_goals rfl

theorem shape_releaseCells (t : WheelTable) (sp : Nat) (cs : List (Cell × Nat)) :
    ∀ e room, (releaseCells t sp e room cs).cells.map Cell.shape = cs.map (fun p => p.1.shape) := by
  induction cs with
  | nil => intro e room; rfl
  | cons p cs ih =>
    obtain ⟨c, x⟩ := p
    intro e room
    simp only [releaseCells]
    repeat' split
    all_goals simp [ih, shape_releaseCell, Function.comp_def]

theorem length_spreadExtras (cs : List Cell) : ∀ b xs, (spreadExtras b xs cs).length = cs.length := by
  induction cs with
  | nil => intro b xs; rfl
  | cons c cs ih =>
    intro b xs
    unfold spreadExtras
    split <;> simp [ih]

theorem map_fst_zip_extras (l : Line) : (l.cells.zip l.cellExtras).map (·.1) = l.cells :=
  List.map_fst_zip (by simp [Line.cellExtras, length_spreadExtras])

theorem shape_releaseLine (t : WheelTable) (room : Nat) (l : Line) :
    ({ l with cells := (releaseLine t room l).cells } : Line).shape = l.shape := by
  have h := shape_releaseCells t l.spacing (l.cells.zip l.cellExtras) l.left room
  have h2 : (l.cells.zip l.cellExtras).map (fun p => p.1.shape) = l.cells.map Cell.shape := by
    conv => rhs; rw [← map_fst_zip_extras l]
    simp [Function.comp_def]
  simp [Line.shape, releaseLine, h, h2]

theorem shape_releaseLines (t : WheelTable) (ls : List Line) :
    ∀ room, (releaseLines t room ls).1.map Line.shape = ls.map Line.shape := by
  induction ls with
  | nil => intro room; rfl
  | cons l ls ih =>
    intro room
    simp only [releaseLines]
    split
    · simp [shape_releaseLine]
    · simp [shape_releaseLine, ih]

@[simp] theorem kept_releasePass (s : State) : (releasePass s).kept = s.kept := by
  have hs : ∀ (e : List Line) (o : List Cell), e.map Line.shape = s.store.earlier.map Line.shape →
      ({ s.store.openLine with cells := o } : Line).shape = s.store.openLine.shape →
      ({ s.store with earlier := e, openLine := { s.store.openLine with cells := o } } : LineStore).kept = s.store.kept := by
    intro e o h1 h2
    simp only [LineStore.kept, h1, h2]
  simp only [releasePass, kept_setLatchIf]
  have key : ∀ (st : LineStore) (js : List Job), st.kept = s.store.kept →
      ({ s with store := st, seq := { s.seq with jobs := js } } : State).kept = s.kept := by
    intro st js h
    simp only [State.kept, h]
  apply key
  rw [storeKept_settleDone]
  apply hs
  · exact shape_releaseLines _ _ _
  · split
    · rfl
    · exact shape_releaseLine _ _ _

/-! ### Checks taken -/

theorem kept_markWord (w : WordRef) (v : Verdict) (s : State) : (markWord w v s).kept = s.kept :=
  kept_withStore (s := s) (storeKept_mapCells _ (fun c => by split <;> rfl) s.store)

@[simp] theorem kept_applyVerdict_hit (w : WordRef) (ls : List Nat) (s : State) :
    (applyVerdict w ls .hit s).kept = s.kept := kept_markWord w .hit s

@[simp] theorem kept_removeCheck (w : WordRef) (s : State) : (removeCheck w s).kept = s.kept := rfl

theorem kept_takeChecksFuel (n : Nat) : ∀ s, (takeChecksFuel n s).kept = s.kept := by
  induction n with
  | zero => intro s; rfl
  | succ n ih =>
    intro s
    unfold takeChecksFuel
    split
    · split
      · rfl
      · split
        · simp [ih]
        · rfl
    · rfl

@[simp] theorem kept_takeChecks (s : State) : (takeChecks s).kept = s.kept := kept_takeChecksFuel _ s

/-! ### The arbiter and what a failed load sets off -/

@[simp] theorem kept_clearReachBefore (s : State) : (clearReachBefore s).kept = s.kept := by
  unfold clearReachBefore
  split
  · rfl
  · rename_i l h
    apply kept_withStore
    have h2 : s.store.earlier = s.store.earlier.dropLast ++ [l] := by
      obtain ⟨ys, hy⟩ := List.getLast?_eq_some_iff.mp h
      simp [hy]
    have h3 : (s.store.earlier.dropLast ++ [{ l with reach := false }]).map Line.shape
        = s.store.earlier.map Line.shape := by
      conv => rhs; rw [h2]
      simp [Line.shape]
    simp only [LineStore.kept, h3]

@[simp] theorem kept_homingOver (s : State) : (homingOver s).kept = s.kept := by
  cases h : s.mon.levels.paper
  · have : (homingOver s).kept = (setLatch .paperOut (clearReachBefore s)).kept := by
      simp only [homingOver, h]; rfl
    rw [this]; simp
  · have : (homingOver s).kept = s.kept := by simp only [homingOver, h]; rfl
    exact this

@[simp] theorem kept_enterWheelWait (r : WaitReason) (hub : Nat) (s : State) :
    (enterWheelWait r hub s).kept = s.kept := rfl

@[simp] theorem kept_endWheelWait (s : State) : (endWheelWait s).kept = s.kept := by
  simp only [endWheelWait, kept_homingOver]; rfl

@[simp] theorem kept_askHomingLoad (hub : Nat) (s : State) : (askHomingLoad hub s).kept = s.kept := by
  unfold askHomingLoad; split <;> rfl

@[simp] theorem kept_replaceTable (t : WheelTable) (s : State) : (replaceTable t s).kept = s.kept := by
  have h := storeKept_mapCells
    (fun c => if c.revised then { c with impressions := reviseList s.mem.active t c.impressions } else c)
    (fun c => by split <;> rfl) s.store
  cases hl : revisionLoses s.mem.active t s <;>
    · simp only [replaceTable, hl]
      exact kept_withStore (s := s) h

@[simp] theorem kept_selectBuiltIn (s : State) : (selectBuiltIn s).kept = s.kept := by
  unfold selectBuiltIn; split <;> simp

theorem kept_withMem {s : State} {m : MemoryLink} (h1 : m.header = s.mem.header) (h2 : m.image = s.mem.image)
    (h3 : m.settingsRead = s.mem.settingsRead) (h4 : m.listRead = s.mem.listRead) :
    ({ s with mem := m } : State).kept = s.kept := by
  simp only [State.kept, h1, h2, h3, h4]

@[simp] theorem kept_compareWheel (hub : Nat) (s : State) : (compareWheel hub s).kept = s.kept := by
  have hc : ∀ t : State, ({ t with mem := { t.mem with provisional := false, boundId := 0 } } : State).kept = t.kept :=
    fun _ => rfl
  have hd : ∀ t : State, ({ t with mem := { t.mem with boundId := 0 } } : State).kept = t.kept := fun _ => rfl
  simp only [compareWheel]
  repeat' split
  all_goals first | rfl | simp [hc, hd]

@[simp] theorem kept_fitWheel (hub : Nat) (d : LoadRequest) (again : Bool) (s : State) :
    (fitWheel hub d again s).kept = s.kept := by
  have hd : ∀ (n : Nat) (t : State), ({ t with mem := { t.mem with boundId := n } } : State).kept = t.kept :=
    fun _ _ => rfl
  simp only [fitWheel]
  repeat' split
  all_goals first | rfl | simp [hd]
  all_goals rfl

@[simp] theorem kept_afterLoad (req : LoadRequest) (good : Bool) (s : State) : (afterLoad req good s).kept = s.kept := by
  simp only [afterLoad]
  repeat' split
  all_goals first | rfl | simp

@[simp] theorem kept_loadFails (req : LoadRequest) (s : State) : (loadFails req s).kept = s.kept := by
  simp only [loadFails, kept_afterLoad, kept_setLatch]; rfl

@[simp] theorem kept_answerSave (b : Bool) (s : State) : (answerSave b s).kept = s.kept := by
  unfold answerSave; split <;> rfl

@[simp] theorem kept_saveEnds (b : Bool) (s : State) : (saveEnds b s).kept = s.kept := by
  have hm : ∀ (nv : List NvItem) (k : List Bool) (t : State),
      ({ t with mem := { t.mem with nv := nv, pageKnown := k } } : State).kept = t.kept := fun _ _ _ => rfl
  simp only [saveEnds]
  split <;> simp [hm]

@[simp] theorem kept_grantJob (j : BusJob) (s : State) : (grantJob j s).kept = s.kept := rfl

@[simp] theorem kept_withProgress (p : SaveProgress) (s : State) : (withProgress p s).kept = s.kept := rfl

@[simp] theorem kept_grantNv (s : State) : (grantNv s).kept = s.kept := by
  have hg : ∀ t : State, ({ t with mem := { t.mem with grantCounter := 0 } } : State).kept = t.kept := fun _ => rfl
  simp only [grantNv]
  repeat' split
  all_goals simp [hg]

theorem kept_grantFuel (n : Nat) : ∀ s, (grantFuel n s).kept = s.kept := by
  induction n with
  | zero => intro s; rfl
  | succ n ih =>
    intro s
    have hl : ∀ (x : Option LoadRequest) (t : State),
        ({ t with mem := { t.mem with loadWaiting := x } } : State).kept = t.kept := fun _ _ => rfl
    simp only [grantFuel]
    repeat' split
    all_goals simp [ih, hl]
    all_goals rfl

@[simp] theorem kept_grantBus (s : State) : (grantBus s).kept = s.kept := kept_grantFuel _ s

/-! ### The sequencer -/

theorem kept_withSeq {s : State} {q : Sequencer} (h1 : q.platen = s.seq.platen) (h2 : q.setting = s.seq.setting) :
    ({ s with seq := q } : State).kept = s.kept := by
  simp only [State.kept, h1, h2]

@[simp] theorem kept_mapHead (f : JobKind → JobKind) (s : State) : (mapHead f s).kept = s.kept := rfl

@[simp] theorem kept_pauseJob (s : State) : (pauseJob s).kept = s.kept := rfl

theorem kept_withCell (n : Nat) (f : Cell → Cell) (hf : ∀ c, (f c).shape = c.shape) (s : State) :
    ({ s with store := s.store.mapCell n f } : State).kept = s.kept :=
  kept_withStore (storeKept_mapCell n f hf s.store)

@[simp] theorem kept_startStrikePulse (g : StrikeTarget) (i : Impression) (s : State) :
    (startStrikePulse g i s).kept = s.kept := by
  cases g with
  | cell n => exact kept_withCell n (fun c => { c with impressions := makeFirst c.impressions }) (fun _ => rfl) s
  | detached p l => rfl

@[simp] theorem kept_startLiftPulse (p : Nat) (l : List Impression) (b : Bool) (d : Nat) (i : Impression) (s : State) :
    (startLiftPulse p l b d i s).kept = s.kept := rfl

@[simp] theorem kept_workStrike (g : StrikeTarget) (s : State) : (workStrike g s).1.kept = s.kept := by
  unfold workStrike
  split
  · rfl
  · split
    · rfl
    · rename_i i _
      have hc : ∀ n, ({ s with store := s.store.mapCell n fun c => { c with state := .striking } } : State).kept = s.kept :=
        fun n => kept_withCell n (fun c => { c with state := .striking }) (fun _ => rfl) s
      have hr : ∀ (r : LifterPos) (t : State), ({ t with seq := { t.seq with ribbonLifter := r } } : State).kept = t.kept :=
        fun _ _ => rfl
      cases g <;> simp only [] <;> repeat' split
      all_goals simp [hr]
      all_goals first | exact hc _ | rfl

@[simp] theorem kept_workLift (p : Nat) (l : List Impression) (b : Bool) (d : Nat) (s : State) :
    (workLift p l b d s).1.kept = s.kept := by
  simp only [workLift]
  repeat' split
  all_goals rfl

@[simp] theorem kept_workHead (s : State) : (workHead s).1.kept = s.kept := by
  unfold workHead
  split
  · rfl
  · split
    · simp
    · simp
    · split <;> rfl
    · simp only []; split <;> rfl

@[simp] theorem kept_startPaperFeed (s : State) : (startPaperFeed s).kept = s.kept := by
  have : (startPaperFeed s).kept = (clearReachBefore s).kept := rfl
  simp [this]

@[simp] theorem kept_completeHead (s : State) : (completeHead s).kept = s.kept := by
  unfold completeHead
  split
  · rfl
  · rename_i j js _
    have hq : ∀ (t : State) (js : List Job),
        ({ t with store := t.store.settleDone, seq := { t.seq with jobs := js, inFlight := false, phase := .rest, mark := false } } : State).kept
          = t.kept := fun t js => kept_withStore (s := t) (storeKept_settleDone t.store)
    have hc : ∀ n, ({ s with store := s.store.mapCell n fun c => { c with state := .printed } } : State).kept = s.kept :=
      fun n => kept_withCell n (fun c => { c with state := .printed }) (fun _ => rfl) s
    extract_lets t js' q r
    have hr : r.kept = s.kept := by
      have ht : t.kept = s.kept := by simp only [t]; split <;> first | rfl | exact hc _
      exact (kept_releasePass _).trans ((hq t js').trans ht)
    split
    · exact (kept_startPaperFeed r).trans hr
    · exact hr

@[simp] theorem kept_refreshSuspend (s : State) : (refreshSuspend s).kept = s.kept := by
  have hs : ∀ (x : SuspendSet) (t : State), ({ t with seq := { t.seq with suspend := x } } : State).kept = t.kept :=
    fun _ _ => rfl
  simp [refreshSuspend, hs]

@[simp] theorem kept_noteReasons (s : State) : (noteReasons s).kept = s.kept := rfl

@[simp] theorem kept_takeHead (s : State) : (takeHead s).kept = s.kept := rfl

@[simp] theorem kept_park (s : State) : (park s).kept = s.kept := rfl

@[simp] theorem kept_beginHoming (b : Bool) (s : State) : (beginHoming b s).kept = s.kept := rfl

@[simp] theorem kept_homeOrInterlock (b : Bool) (s : State) : (homeOrInterlock b s).kept = s.kept := by
  unfold homeOrInterlock; split <;> rfl

theorem kept_seqLoop (n : Nat) : ∀ s, (seqLoop n s).kept = s.kept := by
  induction n with
  | zero => intro s; rfl
  | succ n ih =>
    intro s
    have hm : ∀ (m : MechState) (t : State), ({ t with seq := { t.seq with mech := m } } : State).kept = t.kept :=
      fun _ _ => rfl
    have hp : ∀ (m : MechState) (a b : Bool) (t : State),
        ({ t with seq := { t.seq with mech := m, parking := a, mark := b } } : State).kept = t.kept := fun _ _ _ _ => rfl
    have hw : ∀ t : State, (workHead { t with seq := { t.seq with mech := .busy } }).1.kept = t.kept :=
      fun t => (kept_workHead _).trans rfl
    unfold seqLoop
    split
    · exact kept_homeOrInterlock true s
    all_goals first | exact kept_noteReasons s | skip
    all_goals
      simp only []
      repeat' split
      all_goals simp only [ih, hm, hp, hw, kept_completeHead, kept_refreshSuspend, kept_park, kept_takeHead]

@[simp] theorem kept_seqUpdate (s : State) : (seqUpdate s).kept = s.kept := kept_seqLoop _ s

/-- The end of an event leaves `State.kept` alone. -/
theorem eventEnd_kept (n : Nat) (s : State) : (eventEnd n s).kept = s.kept := by
  simp [eventEnd]

/-! ### What a stop, a release pass and a waiting sequencer leave alone -/

/-- A stop of all motion changes the sequencer and the cell of a STRIKE in flight only (R91). -/
theorem stopMotion_frame (s : State) :
    (stopMotion s).spell = s.spell ∧ (stopMotion s).mem = s.mem ∧ (stopMotion s).mon = s.mon
      ∧ (stopMotion s).disp = s.disp ∧ (stopMotion s).link = s.link ∧ (stopMotion s).seq.jobs = s.seq.jobs
      ∧ (stopMotion s).seq.inFlight = s.seq.inFlight := by
  unfold stopMotion
  simp only
  split <;> exact ⟨rfl, rfl, rfl, rfl, rfl, rfl, rfl⟩

/-- A release pass appends jobs and leaves the rest of the sequencer, the checker and the link alone (R55, R56). -/
theorem releasePass_frame (s : State) :
    (∃ js, (releasePass s).seq = { s.seq with jobs := s.seq.jobs ++ js }) ∧ (releasePass s).spell = s.spell
      ∧ (releasePass s).mem = s.mem ∧ (releasePass s).link = s.link ∧ (releasePass s).mon.levels = s.mon.levels := by
  have latch : ∀ (b : Bool) (x : State), (setLatchIf b .noGlyph x).seq = x.seq ∧ (setLatchIf b .noGlyph x).spell = x.spell
      ∧ (setLatchIf b .noGlyph x).mem = x.mem ∧ (setLatchIf b .noGlyph x).link = x.link
      ∧ (setLatchIf b .noGlyph x).mon.levels = x.mon.levels := by
    intro b x
    cases b <;> exact ⟨rfl, rfl, rfl, rfl, rfl⟩
  unfold releasePass
  simp only [latch]
  exact ⟨⟨_, by rw [List.append_assoc]⟩, trivial, trivial, trivial, trivial⟩

/-- With no check waiting none is taken (R125). -/
theorem takeChecks_empty {s : State} (h : s.spell.queue = []) : takeChecks s = s := by
  simp [takeChecks, takeChecksFuel, h, firstWaiting]

/-- A lookup that outlives a warm reset is stale, and is the one held before (R140, R157). -/
theorem lookupAfterReset_stale {waits : Bool} {before : Option Lookup} {k : Lookup}
    (h : lookupAfterReset waits before = some k) : k.stale = true ∧ ∃ j, before = some j ∧ k = { j with stale := true } := by
  cases before with
  | none => cases h
  | some j =>
    have hk : k = { j with stale := true } := by
      obtain ⟨letters, bucket, stale⟩ := j
      cases stale <;> cases waits <;> simp_all [lookupAfterReset]
    exact ⟨hk ▸ rfl, j, rfl, hk⟩

/-- In the states without sequencing an event only notes the suspend reasons (R65). -/
theorem seqUpdate_waits {s : State}
    (h : s.seq.mech = .homing ∨ s.seq.mech = .interlocked ∨ s.seq.mech = .wheelWait ∨ s.seq.mech = .fault
      ∨ s.seq.mech = .standby) : seqUpdate s = noteReasons s := by
  unfold seqUpdate
  rcases h with h | h | h | h | h <;> simp [seqLoop, h]

end Sys2Proof.Machine
end

