-- ==== Sys2Proof/Laws/State.lean ====
section
/-! SUPPORT. What each update of the state leaves as it was, and what it sets: one lemma per field, by computation. -/

namespace Sys2Proof.Machine

/-! ### setLatch -/

@[simp] theorem setLatch_pending (l : Latch) (s : State) : (setLatch l s).pending = s.pending := rfl
@[simp] theorem setLatch_store (l : Latch) (s : State) : (setLatch l s).store = s.store := rfl
@[simp] theorem setLatch_seq (l : Latch) (s : State) : (setLatch l s).seq = s.seq := rfl
@[simp] theorem setLatch_spell (l : Latch) (s : State) : (setLatch l s).spell = s.spell := rfl
@[simp] theorem setLatch_mem (l : Latch) (s : State) : (setLatch l s).mem = s.mem := rfl
@[simp] theorem setLatch_disp (l : Latch) (s : State) : (setLatch l s).disp = s.disp := rfl
@[simp] theorem setLatch_link (l : Latch) (s : State) : (setLatch l s).link = s.link := rfl

/-! ### answer -/

@[simp] theorem answer_pending (f : OutFrame) (s : State) : (answer f s).pending = s.pending := rfl
@[simp] theorem answer_store (f : OutFrame) (s : State) : (answer f s).store = s.store := rfl
@[simp] theorem answer_seq (f : OutFrame) (s : State) : (answer f s).seq = s.seq := rfl
@[simp] theorem answer_spell (f : OutFrame) (s : State) : (answer f s).spell = s.spell := rfl
@[simp] theorem answer_mem (f : OutFrame) (s : State) : (answer f s).mem = s.mem := rfl
@[simp] theorem answer_disp (f : OutFrame) (s : State) : (answer f s).disp = s.disp := rfl
@[simp] theorem answer_mon (f : OutFrame) (s : State) : (answer f s).mon = s.mon := rfl

/-! ### takeInHand -/

@[simp] theorem takeInHand_pending (f : Frame) (s : State) : (takeInHand f s).pending = s.pending := rfl
@[simp] theorem takeInHand_store (f : Frame) (s : State) : (takeInHand f s).store = s.store := rfl
@[simp] theorem takeInHand_seq (f : Frame) (s : State) : (takeInHand f s).seq = s.seq := rfl
@[simp] theorem takeInHand_spell (f : Frame) (s : State) : (takeInHand f s).spell = s.spell := rfl
@[simp] theorem takeInHand_mem (f : Frame) (s : State) : (takeInHand f s).mem = s.mem := rfl
@[simp] theorem takeInHand_disp (f : Frame) (s : State) : (takeInHand f s).disp = s.disp := rfl
@[simp] theorem takeInHand_mon (f : Frame) (s : State) : (takeInHand f s).mon = s.mon := rfl

/-! ### restartIdle -/

@[simp] theorem restartIdle_pending (s : State) : (restartIdle s).pending = s.pending := rfl
@[simp] theorem restartIdle_store (s : State) : (restartIdle s).store = s.store := rfl
@[simp] theorem restartIdle_seq (s : State) : (restartIdle s).seq = s.seq := rfl
@[simp] theorem restartIdle_spell (s : State) : (restartIdle s).spell = s.spell := rfl
@[simp] theorem restartIdle_mem (s : State) : (restartIdle s).mem = s.mem := rfl
@[simp] theorem restartIdle_disp (s : State) : (restartIdle s).disp = s.disp := rfl
@[simp] theorem restartIdle_link (s : State) : (restartIdle s).link = s.link := rfl

/-! ### withTabs -/

@[simp] theorem withTabs_pending (ts : List TabStop) (s : State) : (withTabs ts s).pending = s.pending := rfl
@[simp] theorem withTabs_seq (ts : List TabStop) (s : State) : (withTabs ts s).seq = s.seq := rfl
@[simp] theorem withTabs_spell (ts : List TabStop) (s : State) : (withTabs ts s).spell = s.spell := rfl
@[simp] theorem withTabs_mem (ts : List TabStop) (s : State) : (withTabs ts s).mem = s.mem := rfl
@[simp] theorem withTabs_disp (ts : List TabStop) (s : State) : (withTabs ts s).disp = s.disp := rfl
@[simp] theorem withTabs_mon (ts : List TabStop) (s : State) : (withTabs ts s).mon = s.mon := rfl
@[simp] theorem withTabs_link (ts : List TabStop) (s : State) : (withTabs ts s).link = s.link := rfl

/-! ### mapHead -/

@[simp] theorem mapHead_pending (f : JobKind → JobKind) (s : State) : (mapHead f s).pending = s.pending := rfl
@[simp] theorem mapHead_store (f : JobKind → JobKind) (s : State) : (mapHead f s).store = s.store := rfl
@[simp] theorem mapHead_spell (f : JobKind → JobKind) (s : State) : (mapHead f s).spell = s.spell := rfl
@[simp] theorem mapHead_mem (f : JobKind → JobKind) (s : State) : (mapHead f s).mem = s.mem := rfl
@[simp] theorem mapHead_disp (f : JobKind → JobKind) (s : State) : (mapHead f s).disp = s.disp := rfl
@[simp] theorem mapHead_mon (f : JobKind → JobKind) (s : State) : (mapHead f s).mon = s.mon := rfl
@[simp] theorem mapHead_link (f : JobKind → JobKind) (s : State) : (mapHead f s).link = s.link := rfl

/-! ### clearMark -/

@[simp] theorem clearMark_pending (s : State) : (clearMark s).pending = s.pending := rfl
@[simp] theorem clearMark_store (s : State) : (clearMark s).store = s.store := rfl
@[simp] theorem clearMark_spell (s : State) : (clearMark s).spell = s.spell := rfl
@[simp] theorem clearMark_mem (s : State) : (clearMark s).mem = s.mem := rfl
@[simp] theorem clearMark_disp (s : State) : (clearMark s).disp = s.disp := rfl
@[simp] theorem clearMark_mon (s : State) : (clearMark s).mon = s.mon := rfl
@[simp] theorem clearMark_link (s : State) : (clearMark s).link = s.link := rfl

/-! ### withHoming -/

@[simp] theorem withHoming_pending (h : Homing) (s : State) : (withHoming h s).pending = s.pending := rfl
@[simp] theorem withHoming_store (h : Homing) (s : State) : (withHoming h s).store = s.store := rfl
@[simp] theorem withHoming_spell (h : Homing) (s : State) : (withHoming h s).spell = s.spell := rfl
@[simp] theorem withHoming_mem (h : Homing) (s : State) : (withHoming h s).mem = s.mem := rfl
@[simp] theorem withHoming_disp (h : Homing) (s : State) : (withHoming h s).disp = s.disp := rfl
@[simp] theorem withHoming_mon (h : Homing) (s : State) : (withHoming h s).mon = s.mon := rfl
@[simp] theorem withHoming_link (h : Homing) (s : State) : (withHoming h s).link = s.link := rfl

/-! ### beginHoming -/

@[simp] theorem beginHoming_pending (b : Bool) (s : State) : (beginHoming b s).pending = s.pending := rfl
@[simp] theorem beginHoming_store (b : Bool) (s : State) : (beginHoming b s).store = s.store := rfl
@[simp] theorem beginHoming_spell (b : Bool) (s : State) : (beginHoming b s).spell = s.spell := rfl
@[simp] theorem beginHoming_mem (b : Bool) (s : State) : (beginHoming b s).mem = s.mem := rfl
@[simp] theorem beginHoming_disp (b : Bool) (s : State) : (beginHoming b s).disp = s.disp := rfl
@[simp] theorem beginHoming_mon (b : Bool) (s : State) : (beginHoming b s).mon = s.mon := rfl
@[simp] theorem beginHoming_link (b : Bool) (s : State) : (beginHoming b s).link = s.link := rfl

/-! ### takeHead -/

@[simp] theorem takeHead_pending (s : State) : (takeHead s).pending = s.pending := rfl
@[simp] theorem takeHead_store (s : State) : (takeHead s).store = s.store := rfl
@[simp] theorem takeHead_spell (s : State) : (takeHead s).spell = s.spell := rfl
@[simp] theorem takeHead_mem (s : State) : (takeHead s).mem = s.mem := rfl
@[simp] theorem takeHead_disp (s : State) : (takeHead s).disp = s.disp := rfl
@[simp] theorem takeHead_mon (s : State) : (takeHead s).mon = s.mon := rfl
@[simp] theorem takeHead_link (s : State) : (takeHead s).link = s.link := rfl

/-! ### park -/

@[simp] theorem park_pending (s : State) : (park s).pending = s.pending := rfl
@[simp] theorem park_store (s : State) : (park s).store = s.store := rfl
@[simp] theorem park_spell (s : State) : (park s).spell = s.spell := rfl
@[simp] theorem park_mem (s : State) : (park s).mem = s.mem := rfl
@[simp] theorem park_disp (s : State) : (park s).disp = s.disp := rfl
@[simp] theorem park_mon (s : State) : (park s).mon = s.mon := rfl
@[simp] theorem park_link (s : State) : (park s).link = s.link := rfl

/-! ### pauseJob -/

@[simp] theorem pauseJob_pending (s : State) : (pauseJob s).pending = s.pending := rfl
@[simp] theorem pauseJob_store (s : State) : (pauseJob s).store = s.store := rfl
@[simp] theorem pauseJob_spell (s : State) : (pauseJob s).spell = s.spell := rfl
@[simp] theorem pauseJob_mem (s : State) : (pauseJob s).mem = s.mem := rfl
@[simp] theorem pauseJob_disp (s : State) : (pauseJob s).disp = s.disp := rfl
@[simp] theorem pauseJob_mon (s : State) : (pauseJob s).mon = s.mon := rfl
@[simp] theorem pauseJob_link (s : State) : (pauseJob s).link = s.link := rfl

/-! ### noteReasons -/

@[simp] theorem noteReasons_pending (s : State) : (noteReasons s).pending = s.pending := rfl
@[simp] theorem noteReasons_store (s : State) : (noteReasons s).store = s.store := rfl
@[simp] theorem noteReasons_spell (s : State) : (noteReasons s).spell = s.spell := rfl
@[simp] theorem noteReasons_mem (s : State) : (noteReasons s).mem = s.mem := rfl
@[simp] theorem noteReasons_disp (s : State) : (noteReasons s).disp = s.disp := rfl
@[simp] theorem noteReasons_mon (s : State) : (noteReasons s).mon = s.mon := rfl
@[simp] theorem noteReasons_link (s : State) : (noteReasons s).link = s.link := rfl

/-! ### freeBus -/

@[simp] theorem freeBus_pending (s : State) : (freeBus s).pending = s.pending := rfl
@[simp] theorem freeBus_store (s : State) : (freeBus s).store = s.store := rfl
@[simp] theorem freeBus_seq (s : State) : (freeBus s).seq = s.seq := rfl
@[simp] theorem freeBus_spell (s : State) : (freeBus s).spell = s.spell := rfl
@[simp] theorem freeBus_disp (s : State) : (freeBus s).disp = s.disp := rfl
@[simp] theorem freeBus_mon (s : State) : (freeBus s).mon = s.mon := rfl
@[simp] theorem freeBus_link (s : State) : (freeBus s).link = s.link := rfl

/-! ### grantJob -/

@[simp] theorem grantJob_pending (j : BusJob) (s : State) : (grantJob j s).pending = s.pending := rfl
@[simp] theorem grantJob_store (j : BusJob) (s : State) : (grantJob j s).store = s.store := rfl
@[simp] theorem grantJob_seq (j : BusJob) (s : State) : (grantJob j s).seq = s.seq := rfl
@[simp] theorem grantJob_spell (j : BusJob) (s : State) : (grantJob j s).spell = s.spell := rfl
@[simp] theorem grantJob_disp (j : BusJob) (s : State) : (grantJob j s).disp = s.disp := rfl
@[simp] theorem grantJob_mon (j : BusJob) (s : State) : (grantJob j s).mon = s.mon := rfl
@[simp] theorem grantJob_link (j : BusJob) (s : State) : (grantJob j s).link = s.link := rfl

/-! ### withProgress -/

@[simp] theorem withProgress_pending (p : SaveProgress) (s : State) : (withProgress p s).pending = s.pending := rfl
@[simp] theorem withProgress_store (p : SaveProgress) (s : State) : (withProgress p s).store = s.store := rfl
@[simp] theorem withProgress_seq (p : SaveProgress) (s : State) : (withProgress p s).seq = s.seq := rfl
@[simp] theorem withProgress_spell (p : SaveProgress) (s : State) : (withProgress p s).spell = s.spell := rfl
@[simp] theorem withProgress_disp (p : SaveProgress) (s : State) : (withProgress p s).disp = s.disp := rfl
@[simp] theorem withProgress_mon (p : SaveProgress) (s : State) : (withProgress p s).mon = s.mon := rfl
@[simp] theorem withProgress_link (p : SaveProgress) (s : State) : (withProgress p s).link = s.link := rfl

/-! ### removeCheck -/

@[simp] theorem removeCheck_pending (w : WordRef) (s : State) : (removeCheck w s).pending = s.pending := rfl
@[simp] theorem removeCheck_store (w : WordRef) (s : State) : (removeCheck w s).store = s.store := rfl
@[simp] theorem removeCheck_seq (w : WordRef) (s : State) : (removeCheck w s).seq = s.seq := rfl
@[simp] theorem removeCheck_mem (w : WordRef) (s : State) : (removeCheck w s).mem = s.mem := rfl
@[simp] theorem removeCheck_disp (w : WordRef) (s : State) : (removeCheck w s).disp = s.disp := rfl
@[simp] theorem removeCheck_mon (w : WordRef) (s : State) : (removeCheck w s).mon = s.mon := rfl
@[simp] theorem removeCheck_link (w : WordRef) (s : State) : (removeCheck w s).link = s.link := rfl

/-! ### markWord -/

@[simp] theorem markWord_pending (w : WordRef) (v : Verdict) (s : State) : (markWord w v s).pending = s.pending := rfl
@[simp] theorem markWord_seq (w : WordRef) (v : Verdict) (s : State) : (markWord w v s).seq = s.seq := rfl
@[simp] theorem markWord_spell (w : WordRef) (v : Verdict) (s : State) : (markWord w v s).spell = s.spell := rfl
@[simp] theorem markWord_mem (w : WordRef) (v : Verdict) (s : State) : (markWord w v s).mem = s.mem := rfl
@[simp] theorem markWord_disp (w : WordRef) (v : Verdict) (s : State) : (markWord w v s).disp = s.disp := rfl
@[simp] theorem markWord_mon (w : WordRef) (v : Verdict) (s : State) : (markWord w v s).mon = s.mon := rfl
@[simp] theorem markWord_link (w : WordRef) (v : Verdict) (s : State) : (markWord w v s).link = s.link := rfl

/-! ### clearWordHolds -/

@[simp] theorem clearWordHolds_pending (s : State) : (clearWordHolds s).pending = s.pending := rfl
@[simp] theorem clearWordHolds_seq (s : State) : (clearWordHolds s).seq = s.seq := rfl
@[simp] theorem clearWordHolds_spell (s : State) : (clearWordHolds s).spell = s.spell := rfl
@[simp] theorem clearWordHolds_mem (s : State) : (clearWordHolds s).mem = s.mem := rfl
@[simp] theorem clearWordHolds_disp (s : State) : (clearWordHolds s).disp = s.disp := rfl
@[simp] theorem clearWordHolds_mon (s : State) : (clearWordHolds s).mon = s.mon := rfl
@[simp] theorem clearWordHolds_link (s : State) : (clearWordHolds s).link = s.link := rfl

/-! ### giveWordHolds -/

@[simp] theorem giveWordHolds_pending (s : State) : (giveWordHolds s).pending = s.pending := rfl
@[simp] theorem giveWordHolds_seq (s : State) : (giveWordHolds s).seq = s.seq := rfl
@[simp] theorem giveWordHolds_spell (s : State) : (giveWordHolds s).spell = s.spell := rfl
@[simp] theorem giveWordHolds_mem (s : State) : (giveWordHolds s).mem = s.mem := rfl
@[simp] theorem giveWordHolds_disp (s : State) : (giveWordHolds s).disp = s.disp := rfl
@[simp] theorem giveWordHolds_mon (s : State) : (giveWordHolds s).mon = s.mon := rfl
@[simp] theorem giveWordHolds_link (s : State) : (giveWordHolds s).link = s.link := rfl

/-! ### markDrain -/

@[simp] theorem markDrain_pending (s : State) : (markDrain s).pending = s.pending := rfl
@[simp] theorem markDrain_spell (s : State) : (markDrain s).spell = s.spell := rfl
@[simp] theorem markDrain_mem (s : State) : (markDrain s).mem = s.mem := rfl
@[simp] theorem markDrain_disp (s : State) : (markDrain s).disp = s.disp := rfl
@[simp] theorem markDrain_mon (s : State) : (markDrain s).mon = s.mon := rfl
@[simp] theorem markDrain_link (s : State) : (markDrain s).link = s.link := rfl

/-! ### refreshLamps -/

@[simp] theorem refreshLamps_pending (s : State) : (refreshLamps s).pending = s.pending := rfl
@[simp] theorem refreshLamps_store (s : State) : (refreshLamps s).store = s.store := rfl
@[simp] theorem refreshLamps_seq (s : State) : (refreshLamps s).seq = s.seq := rfl
@[simp] theorem refreshLamps_spell (s : State) : (refreshLamps s).spell = s.spell := rfl
@[simp] theorem refreshLamps_mem (s : State) : (refreshLamps s).mem = s.mem := rfl
@[simp] theorem refreshLamps_disp (s : State) : (refreshLamps s).disp = s.disp := rfl
@[simp] theorem refreshLamps_link (s : State) : (refreshLamps s).link = s.link := rfl

/-! ### refreshIdle -/

@[simp] theorem refreshIdle_pending (s : State) : (refreshIdle s).pending = s.pending := rfl
@[simp] theorem refreshIdle_store (s : State) : (refreshIdle s).store = s.store := rfl
@[simp] theorem refreshIdle_seq (s : State) : (refreshIdle s).seq = s.seq := rfl
@[simp] theorem refreshIdle_spell (s : State) : (refreshIdle s).spell = s.spell := rfl
@[simp] theorem refreshIdle_mem (s : State) : (refreshIdle s).mem = s.mem := rfl
@[simp] theorem refreshIdle_disp (s : State) : (refreshIdle s).disp = s.disp := rfl
@[simp] theorem refreshIdle_link (s : State) : (refreshIdle s).link = s.link := rfl

/-! ### refreshDisplay -/

@[simp] theorem refreshDisplay_pending (s : State) : (refreshDisplay s).pending = s.pending := rfl
@[simp] theorem refreshDisplay_store (s : State) : (refreshDisplay s).store = s.store := rfl
@[simp] theorem refreshDisplay_seq (s : State) : (refreshDisplay s).seq = s.seq := rfl
@[simp] theorem refreshDisplay_spell (s : State) : (refreshDisplay s).spell = s.spell := rfl
@[simp] theorem refreshDisplay_mem (s : State) : (refreshDisplay s).mem = s.mem := rfl
@[simp] theorem refreshDisplay_mon (s : State) : (refreshDisplay s).mon = s.mon := rfl
@[simp] theorem refreshDisplay_link (s : State) : (refreshDisplay s).link = s.link := rfl

/-! ### frameError -/

@[simp] theorem frameError_pending (s : State) : (frameError s).pending = s.pending := rfl
@[simp] theorem frameError_store (s : State) : (frameError s).store = s.store := rfl
@[simp] theorem frameError_seq (s : State) : (frameError s).seq = s.seq := rfl
@[simp] theorem frameError_spell (s : State) : (frameError s).spell = s.spell := rfl
@[simp] theorem frameError_mem (s : State) : (frameError s).mem = s.mem := rfl
@[simp] theorem frameError_disp (s : State) : (frameError s).disp = s.disp := rfl

/-! ### The fields that change -/

@[simp] theorem setLatch_levels (l : Latch) (s : State) : (setLatch l s).mon.levels = s.mon.levels := rfl
@[simp] theorem setLatch_masks (l : Latch) (s : State) : (setLatch l s).mon.masks = s.mon.masks := rfl
@[simp] theorem setLatch_power (l : Latch) (s : State) : (setLatch l s).mon.power = s.mon.power := rfl
@[simp] theorem setLatch_config (l : Latch) (s : State) : (setLatch l s).mon.config = s.mon.config := rfl
@[simp] theorem setLatch_pendingSet (l : Latch) (s : State) : (setLatch l s).mon.pendingSet = s.mon.pendingSet := rfl
@[simp] theorem setLatch_latches (l : Latch) (s : State) :
    (setLatch l s).mon.latches = s.mon.latches.withLatch l := rfl

@[simp] theorem answer_output (f : OutFrame) (s : State) : (answer f s).link.output = s.link.output ++ [f] := rfl
@[simp] theorem answer_hand (f : OutFrame) (s : State) : (answer f s).link.hand = none := rfl
@[simp] theorem answer_input (f : OutFrame) (s : State) : (answer f s).link.input = s.link.input := rfl
@[simp] theorem answer_drain (f : OutFrame) (s : State) : (answer f s).link.drain = s.link.drain := rfl
@[simp] theorem answer_save (f : OutFrame) (s : State) : (answer f s).link.save = s.link.save := rfl
@[simp] theorem answer_errors (f : OutFrame) (s : State) : (answer f s).link.errors = s.link.errors := rfl

@[simp] theorem takeInHand_hand (f : Frame) (s : State) : (takeInHand f s).link.hand = some f := rfl
@[simp] theorem takeInHand_output (f : Frame) (s : State) : (takeInHand f s).link.output = s.link.output := rfl
@[simp] theorem takeInHand_input (f : Frame) (s : State) : (takeInHand f s).link.input = s.link.input := rfl
@[simp] theorem takeInHand_drain (f : Frame) (s : State) : (takeInHand f s).link.drain = s.link.drain := rfl
@[simp] theorem takeInHand_save (f : Frame) (s : State) : (takeInHand f s).link.save = s.link.save := rfl
@[simp] theorem takeInHand_errors (f : Frame) (s : State) : (takeInHand f s).link.errors = s.link.errors := rfl

@[simp] theorem restartIdle_levels (s : State) : (restartIdle s).mon.levels = s.mon.levels := rfl
@[simp] theorem restartIdle_latches (s : State) : (restartIdle s).mon.latches = s.mon.latches := rfl
@[simp] theorem restartIdle_masks (s : State) : (restartIdle s).mon.masks = s.mon.masks := rfl
@[simp] theorem restartIdle_power (s : State) : (restartIdle s).mon.power = s.mon.power := rfl
@[simp] theorem restartIdle_pendingSet (s : State) : (restartIdle s).mon.pendingSet = s.mon.pendingSet := rfl
@[simp] theorem restartIdle_lamps (s : State) : (restartIdle s).mon.lamps = s.mon.lamps := rfl
@[simp] theorem restartIdle_config (s : State) : (restartIdle s).mon.config = s.mon.config := rfl

@[simp] theorem withTabs_tabs (ts : List TabStop) (s : State) : (withTabs ts s).store.settings.tabs = ts := rfl
@[simp] theorem withHoming_homing (h : Homing) (s : State) : (withHoming h s).seq.homing = some h := rfl
@[simp] theorem clearMark_mark (s : State) : (clearMark s).seq.mark = false := rfl
@[simp] theorem beginHoming_mech (b : Bool) (s : State) : (beginHoming b s).seq.mech = .homing := rfl
@[simp] theorem takeHead_inFlight (s : State) : (takeHead s).seq.inFlight = true := rfl
@[simp] theorem grantJob_transaction (j : BusJob) (s : State) :
    (grantJob j s).mem.transaction = some { job := j, mark := false } := rfl
@[simp] theorem freeBus_transaction (s : State) : (freeBus s).mem.transaction = none := rfl

end Sys2Proof.Machine
end

