-- ==== Sys2Proof/Laws/Places.lean ====
section
/-! SUPPORT. What each shared operation does to the Control Link: most leave it alone, and those that queue a frame
keep the 8 places of the output queue (R189). -/

namespace Sys2Proof.Machine

/-! ### Operations that leave the link alone -/

@[simp] theorem link_setLatchIf (b : Bool) (l : Latch) (s : State) : (setLatchIf b l s).link = s.link := by
  cases b <;> rfl

@[simp] theorem link_beep (p : BeepPattern) (s : State) : (beep p s).link = s.link := by
  unfold beep; split <;> rfl

@[simp] theorem link_judgeWord (b : Bool) (s : State) : (judgeWord b s).link = s.link := by
  unfold judgeWord; split
  · rfl
  · split <;> rfl

@[simp] theorem link_applyVerdict (w : WordRef) (ls : List Nat) (v : Verdict) (s : State) :
    (applyVerdict w ls v s).link = s.link := by
  cases v <;> simp [applyVerdict]

theorem link_takeChecksFuel (n : Nat) : ∀ s, (takeChecksFuel n s).link = s.link := by
  induction n with
  | zero => intro s; rfl
  | succ n ih =>
    intro s
    unfold takeChecksFuel
    repeat' split
    all_goals first | rfl | simp [ih]

@[simp] theorem link_takeChecks (s : State) : (takeChecks s).link = s.link := link_takeChecksFuel _ s

theorem link_foldl_verdicts (qs : List CheckRequest) :
    ∀ s, (qs.foldl (fun s r => applyVerdict r.word r.letters .skip s) s).link = s.link := by
  induction qs with
  | nil => intro s; rfl
  | cons q qs ih => intro s; simp [ih]

@[simp] theorem link_skipAllChecks (s : State) : (skipAllChecks s).link = s.link := by
  simp [skipAllChecks, link_foldl_verdicts]

@[simp] theorem link_spellingLost (s : State) : (spellingLost s).link = s.link := by
  simp only [spellingLost]; split <;> simp

@[simp] theorem link_requestHeader (s : State) : (requestHeader s).link = s.link := rfl

@[simp] theorem link_clearReachBefore (s : State) : (clearReachBefore s).link = s.link := by
  unfold clearReachBefore; split <;> rfl

@[simp] theorem link_homingOver (s : State) : (homingOver s).link = s.link := by
  simp only [homingOver]; split <;> simp

@[simp] theorem link_enterWheelWait (r : WaitReason) (h : Nat) (s : State) : (enterWheelWait r h s).link = s.link := rfl

@[simp] theorem link_endWheelWait (s : State) : (endWheelWait s).link = s.link := by simp [endWheelWait]

@[simp] theorem link_askHomingLoad (h : Nat) (s : State) : (askHomingLoad h s).link = s.link := by
  unfold askHomingLoad; split <;> rfl

@[simp] theorem link_replaceTable (t : WheelTable) (s : State) : (replaceTable t s).link = s.link := by
  simp [replaceTable]

@[simp] theorem link_selectBuiltIn (s : State) : (selectBuiltIn s).link = s.link := by
  unfold selectBuiltIn; split <;> simp

@[simp] theorem link_compareWheel (h : Nat) (s : State) : (compareWheel h s).link = s.link := by
  simp only [compareWheel]; repeat' split
  all_goals simp

@[simp] theorem link_fitWheel (h : Nat) (d : LoadRequest) (b : Bool) (s : State) : (fitWheel h d b s).link = s.link := by
  simp only [fitWheel]; repeat' split
  all_goals simp

@[simp] theorem link_afterLoad (r : LoadRequest) (g : Bool) (s : State) : (afterLoad r g s).link = s.link := by
  simp only [afterLoad]; repeat' split
  all_goals simp

@[simp] theorem link_loadFails (r : LoadRequest) (s : State) : (loadFails r s).link = s.link := by simp [loadFails]

@[simp] theorem link_loadSucceeds (r : LoadRequest) (t : WheelTable) (s : State) : (loadSucceeds r t s).link = s.link := by
  simp [loadSucceeds]

@[simp] theorem link_headerEnds (h : Option RomHeader) (s : State) : (headerEnds h s).link = s.link := by
  cases h <;> simp only [headerEnds] <;> (repeat' split) <;> simp

@[simp] theorem link_recordReadEnds (b : Option (List Byte)) (s : State) : (recordReadEnds b s).link = s.link := by
  simp only [recordReadEnds]; repeat' split
  all_goals rfl

@[simp] theorem link_releasePass (s : State) : (releasePass s).link = s.link := by simp [releasePass]

@[simp] theorem link_judgeTypeAhead (n : Nat) (s : State) : (judgeTypeAhead n s).link = s.link := by
  simp [judgeTypeAhead]

@[simp] theorem link_startStrikePulse (g : StrikeTarget) (i : Impression) (s : State) :
    (startStrikePulse g i s).link = s.link := by cases g <;> rfl

@[simp] theorem link_workStrike (g : StrikeTarget) (s : State) : (workStrike g s).1.link = s.link := by
  unfold workStrike
  split
  · rfl
  · split
    · rfl
    · cases g <;> simp only [] <;> (repeat' split) <;> simp

@[simp] theorem link_workLift (p : Nat) (l : List Impression) (b : Bool) (d : Nat) (s : State) :
    (workLift p l b d s).1.link = s.link := by
  simp only [workLift]; repeat' split
  all_goals rfl

@[simp] theorem link_workHead (s : State) : (workHead s).1.link = s.link := by
  simp only [workHead]; repeat' split
  all_goals first | rfl | simp

@[simp] theorem link_startPaperFeed (s : State) : (startPaperFeed s).link = s.link := by
  have : (startPaperFeed s).link = (clearReachBefore s).link := rfl
  simp [this]

@[simp] theorem link_completeHead (s : State) : (completeHead s).link = s.link := by
  unfold completeHead
  split
  · rfl
  · extract_lets t js q r
    have hr : r.link = s.link := by
      have ht : t.link = s.link := by simp only [t]; split <;> rfl
      exact (link_releasePass _).trans ht
    split
    · exact (link_startPaperFeed r).trans hr
    · exact hr

@[simp] theorem link_refreshSuspend (s : State) : (refreshSuspend s).link = s.link := by simp [refreshSuspend]

@[simp] theorem link_homeOrInterlock (b : Bool) (s : State) : (homeOrInterlock b s).link = s.link := by
  unfold homeOrInterlock; split <;> rfl

theorem link_seqLoop (n : Nat) : ∀ s, (seqLoop n s).link = s.link := by
  induction n with
  | zero => intro s; rfl
  | succ n ih =>
    intro s
    unfold seqLoop
    simp only []
    repeat' split
    all_goals simp [ih]

@[simp] theorem link_seqUpdate (s : State) : (seqUpdate s).link = s.link := link_seqLoop _ s

@[simp] theorem link_stopMotion (s : State) : (stopMotion s).link = s.link := by
  simp only [stopMotion]; split <;> rfl

@[simp] theorem link_tickMotion (s : State) : (tickMotion s).link = s.link := by
  simp only [tickMotion, stallMotion, homeFail, motionFault]; repeat' split
  all_goals simp

/-! ### Operations that queue a frame -/

/-- A NOTICE is queued only in a free place (R173, R189). -/
theorem places_noticeCheck {s : State} (h : places s.link ≤ Config.outputPlaces) :
    places (noticeCheck s).link ≤ Config.outputPlaces := by
  simp only [noticeCheck]
  split
  · rename_i hg
    simp only [Bool.and_eq_true, decide_eq_true_eq] at hg
    have := hg.2
    simp only [freePlaces, places, reservedPlaces, List.length_append, List.length_singleton] at *
    omega
  · exact h

/-- The DRAIN reply fills the place that was reserved for it (R190). -/
theorem places_drainCheck (s : State) : places (drainCheck s).link = places s.link := by
  unfold drainCheck
  split
  · rfl
  · rename_i tag hd
    split
    · rfl
    · simp [places, reservedPlaces, hd]; omega

/-- The SAVE-SETTINGS reply fills the place that was reserved for it (R190). -/
theorem places_answerSave (b : Bool) (s : State) : places (answerSave b s).link = places s.link := by
  unfold answerSave
  split
  · rfl
  · rename_i tag hd
    simp [places, reservedPlaces, hd]; omega

theorem places_saveEnds (b : Bool) (s : State) : places (saveEnds b s).link = places s.link := by
  simp only [saveEnds]
  split
  · rw [places_answerSave]; simp
  all_goals simp

theorem places_grantNv (s : State) : places (grantNv s).link = places s.link := by
  simp only [grantNv]
  repeat' split
  all_goals first | rfl | (rw [places_saveEnds]) | simp

theorem places_grantFuel (n : Nat) : ∀ s, places (grantFuel n s).link = places s.link := by
  induction n with
  | zero => intro s; rfl
  | succ n ih =>
    intro s
    unfold grantFuel
    simp only []
    repeat' split
    all_goals first | rfl | simp [ih, places_grantNv]

theorem places_grantBus (s : State) : places (grantBus s).link = places s.link := places_grantFuel _ s

theorem places_eventEnd {s : State} (n : Nat) (h : places s.link ≤ Config.outputPlaces) :
    places (eventEnd n s).link ≤ Config.outputPlaces := by
  apply places_noticeCheck
  simp [places_drainCheck, places_grantBus, h]

end Sys2Proof.Machine
end

