-- ==== Sys2Proof/Laws/Link.lean ====
section
/-! SUPPORT. How a request row reaches its owning block, and what an answer does. -/

namespace Sys2Proof.Machine

theorem canTake_hand {s : State} (h : canTake s = true) : s.link.hand = none := by
  simp [canTake] at h; exact h.1.2

theorem canTake_free {s : State} (h : canTake s = true) : 0 < freePlaces s.link := by
  simp [canTake] at h; exact h.2

theorem Taken.hand {s : State} (h : Taken s) : s.link.hand = none := canTake_hand h.2.2

/-- The countdown's restart changes nothing that the taking of a frame looks at. -/
theorem canTake_restartIdle (s : State) : canTake (restartIdle s) = canTake s := rfl

/-- A request row that is taken at once is served by its owning block (log 1). -/
theorem hostRequest_taken {s : State} (h : Taken s) (tag : Byte) (r : Request) :
    hostRequest tag r s = serve tag false r (atBlock tag r s) := by
  obtain ⟨hp, hi, hc⟩ := h
  have h1 : startByteEvent s = restartIdle s := by simp [startByteEvent, hp]
  have hb : (Power.running == Power.standby) = false := rfl
  simp [hostRequest, h1, hi, canTake_restartIdle, hc, hp, atBlock, hb]

/-- A request row that is not taken at once joins the input buffer (log 1). -/
theorem hostRequest_waits {s : State} (hp : s.mon.power = .running) (hw : s.link.input ≠ [] ∨ canTake s = false)
    (tag : Byte) (r : Request) :
    hostRequest tag r s = noticeCheck (bufferFrame (requestFrame tag false r) (restartIdle s)) := by
  have h1 : startByteEvent s = restartIdle s := by simp [startByteEvent, hp]
  have h2 : (s.link.input.isEmpty && canTake s) = false := by
    rcases hw with h | h
    · cases hs : s.link.input <;> simp_all
    · simp [h]
  have hb : (Power.running == Power.standby) = false := rfl
  simp [hostRequest, h1, canTake_restartIdle, hp, h2, hb]

/-- An answer to a request that changed nothing leaves only the restarted countdown and the answer. -/
theorem answer_atBlock {s : State} (h : s.link.hand = none) (f : OutFrame) (tag : Byte) (r : Request) :
    answer f (atBlock tag r s) = answered f s := by
  simp only [answer, atBlock, answered, takeInHand, restartIdle, ← h]

end Sys2Proof.Machine
end

