-- ==== Sys2Proof/Laws/PerInstr.lean ====
section
/-! SUPPORT. The family Shape: what each command is as syntax. No table word spells it (no row gives bits), and a request
row carries a request whose payload has a length that Table 10-3 permits whenever the row is well formed. -/

namespace Sys2Proof.Laws.Shape

open Sys2Proof.Machine

/-- A command's shape: no word of the table spells it, and the frame of a request row fits the link (R183, R188). -/
def Statement (i : Instr) : Prop :=
  (∀ nbits w, decodeTableWord nbits w ≠ some i)
    ∧ ∀ tag r, asRequest i = some (tag, r) →
        r.wellFormed = i.wellFormed
          ∧ (i.wellFormed = true → lengthPermitted r.kind.toNat r.payload.length = true ∧ r.payload.length ≤ 32)

theorem noWord (i : Instr) (nbits w : Nat) : decodeTableWord nbits w ≠ some i := by simp [decodeTableWord]

theorem length_encodeKeys (rs : List KeyRec) : (encodeKeys rs).length = 2 * rs.length := by
  induction rs with
  | nil => rfl
  | cons r rs ih => simp [encodeKeys, ih]; omega

theorem identify (tag : Byte) : Statement (.identify tag) := by
  refine ⟨noWord _, ?_⟩
  intro t r h
  simp only [asRequest, Option.some.injEq, Prod.mk.injEq] at h
  obtain ⟨-, rfl⟩ := h
  exact ⟨rfl, fun _ => ⟨rfl, by simp [Request.payload]⟩⟩

theorem status (tag : Byte) : Statement (.status tag) := by
  refine ⟨noWord _, ?_⟩
  intro t r h
  simp only [asRequest, Option.some.injEq, Prod.mk.injEq] at h
  obtain ⟨-, rfl⟩ := h
  exact ⟨rfl, fun _ => ⟨rfl, by simp [Request.payload]⟩⟩

theorem keys (tag : Byte) (recs : List KeyRec) : Statement (.keys tag recs) := by
  refine ⟨noWord _, ?_⟩
  intro t r h
  simp only [asRequest, Option.some.injEq, Prod.mk.injEq] at h
  obtain ⟨-, rfl⟩ := h
  refine ⟨rfl, fun hw => ?_⟩
  simp [Instr.wellFormed] at hw
  simp [Request.kind, Request.payload, lengthPermitted, length_encodeKeys]
  omega

theorem correct (tag : Byte) : Statement (.correct tag) := by
  refine ⟨noWord _, ?_⟩
  intro t r h
  simp only [asRequest, Option.some.injEq, Prod.mk.injEq] at h
  obtain ⟨-, rfl⟩ := h
  exact ⟨rfl, fun _ => ⟨rfl, by simp [Request.payload]⟩⟩

theorem wordErase (tag : Byte) : Statement (.wordErase tag) := by
  refine ⟨noWord _, ?_⟩
  intro t r h
  simp only [asRequest, Option.some.injEq, Prod.mk.injEq] at h
  obtain ⟨-, rfl⟩ := h
  exact ⟨rfl, fun _ => ⟨rfl, by simp [Request.payload]⟩⟩

theorem lineErase (tag : Byte) : Statement (.lineErase tag) := by
  refine ⟨noWord _, ?_⟩
  intro t r h
  simp only [asRequest, Option.some.injEq, Prod.mk.injEq] at h
  obtain ⟨-, rfl⟩ := h
  exact ⟨rfl, fun _ => ⟨rfl, by simp [Request.payload]⟩⟩

theorem index (tag : Byte) (direction : Byte) (count : Byte) : Statement (.index tag direction count) := by
  refine ⟨noWord _, ?_⟩
  intro t r h
  simp only [asRequest, Option.some.injEq, Prod.mk.injEq] at h
  obtain ⟨-, rfl⟩ := h
  exact ⟨rfl, fun _ => ⟨rfl, by simp [Request.payload]⟩⟩

theorem setMargins (tag : Byte) (left : Half) (right : Half) : Statement (.setMargins tag left right) := by
  refine ⟨noWord _, ?_⟩
  intro t r h
  simp only [asRequest, Option.some.injEq, Prod.mk.injEq] at h
  obtain ⟨-, rfl⟩ := h
  exact ⟨rfl, fun _ => ⟨rfl, by simp [Request.payload]⟩⟩

theorem setLayout (tag : Byte) (fields : LayoutFields) : Statement (.setLayout tag fields) := by
  refine ⟨noWord _, ?_⟩
  intro t r h
  simp only [asRequest, Option.some.injEq, Prod.mk.injEq] at h
  obtain ⟨-, rfl⟩ := h
  exact ⟨rfl, fun _ => ⟨rfl, by simp [Request.payload]⟩⟩

theorem setTab (tag : Byte) (position : Half) (kind : Byte) : Statement (.setTab tag position kind) := by
  refine ⟨noWord _, ?_⟩
  intro t r h
  simp only [asRequest, Option.some.injEq, Prod.mk.injEq] at h
  obtain ⟨-, rfl⟩ := h
  exact ⟨rfl, fun _ => ⟨rfl, by simp [Request.payload]⟩⟩

theorem clearTab (tag : Byte) (position : Half) : Statement (.clearTab tag position) := by
  refine ⟨noWord _, ?_⟩
  intro t r h
  simp only [asRequest, Option.some.injEq, Prod.mk.injEq] at h
  obtain ⟨-, rfl⟩ := h
  exact ⟨rfl, fun _ => ⟨rfl, by simp [Request.payload]⟩⟩

theorem clearAllTabs (tag : Byte) : Statement (.clearAllTabs tag) := by
  refine ⟨noWord _, ?_⟩
  intro t r h
  simp only [asRequest, Option.some.injEq, Prod.mk.injEq] at h
  obtain ⟨-, rfl⟩ := h
  exact ⟨rfl, fun _ => ⟨rfl, by simp [Request.payload]⟩⟩

theorem spellAccept (tag : Byte) : Statement (.spellAccept tag) := by
  refine ⟨noWord _, ?_⟩
  intro t r h
  simp only [asRequest, Option.some.injEq, Prod.mk.injEq] at h
  obtain ⟨-, rfl⟩ := h
  exact ⟨rfl, fun _ => ⟨rfl, by simp [Request.payload]⟩⟩

theorem spellAdd (tag : Byte) : Statement (.spellAdd tag) := by
  refine ⟨noWord _, ?_⟩
  intro t r h
  simp only [asRequest, Option.some.injEq, Prod.mk.injEq] at h
  obtain ⟨-, rfl⟩ := h
  exact ⟨rfl, fun _ => ⟨rfl, by simp [Request.payload]⟩⟩

theorem userWordRead (tag : Byte) (n : Byte) : Statement (.userWordRead tag n) := by
  refine ⟨noWord _, ?_⟩
  intro t r h
  simp only [asRequest, Option.some.injEq, Prod.mk.injEq] at h
  obtain ⟨-, rfl⟩ := h
  exact ⟨rfl, fun _ => ⟨rfl, by simp [Request.payload]⟩⟩

theorem userWordDelete (tag : Byte) (codes : List Byte) : Statement (.userWordDelete tag codes) := by
  refine ⟨noWord _, ?_⟩
  intro t r h
  simp only [asRequest, Option.some.injEq, Prod.mk.injEq] at h
  obtain ⟨-, rfl⟩ := h
  refine ⟨rfl, fun hw => ?_⟩
  simp [Instr.wellFormed] at hw
  simp [Request.kind, Request.payload, lengthPermitted]
  exact hw

theorem drain (tag : Byte) : Statement (.drain tag) := by
  refine ⟨noWord _, ?_⟩
  intro t r h
  simp only [asRequest, Option.some.injEq, Prod.mk.injEq] at h
  obtain ⟨-, rfl⟩ := h
  exact ⟨rfl, fun _ => ⟨rfl, by simp [Request.payload]⟩⟩

theorem wheelAssign (tag : Byte) (id : Byte) : Statement (.wheelAssign tag id) := by
  refine ⟨noWord _, ?_⟩
  intro t r h
  simp only [asRequest, Option.some.injEq, Prod.mk.injEq] at h
  obtain ⟨-, rfl⟩ := h
  exact ⟨rfl, fun _ => ⟨rfl, by simp [Request.payload]⟩⟩

theorem discard (tag : Byte) : Statement (.discard tag) := by
  refine ⟨noWord _, ?_⟩
  intro t r h
  simp only [asRequest, Option.some.injEq, Prod.mk.injEq] at h
  obtain ⟨-, rfl⟩ := h
  exact ⟨rfl, fun _ => ⟨rfl, by simp [Request.payload]⟩⟩

theorem recover (tag : Byte) : Statement (.recover tag) := by
  refine ⟨noWord _, ?_⟩
  intro t r h
  simp only [asRequest, Option.some.injEq, Prod.mk.injEq] at h
  obtain ⟨-, rfl⟩ := h
  exact ⟨rfl, fun _ => ⟨rfl, by simp [Request.payload]⟩⟩

theorem displayOverlay (tag : Byte) (timeout : Byte) (first : Byte) (codes : List Byte) : Statement (.displayOverlay tag timeout first codes) := by
  refine ⟨noWord _, ?_⟩
  intro t r h
  simp only [asRequest, Option.some.injEq, Prod.mk.injEq] at h
  obtain ⟨-, rfl⟩ := h
  refine ⟨rfl, fun hw => ?_⟩
  simp [Instr.wellFormed] at hw
  constructor
  · simp [Request.kind, Request.payload, lengthPermitted]
  · simp only [Request.payload, List.length_cons]; omega

theorem displayRelease (tag : Byte) : Statement (.displayRelease tag) := by
  refine ⟨noWord _, ?_⟩
  intro t r h
  simp only [asRequest, Option.some.injEq, Prod.mk.injEq] at h
  obtain ⟨-, rfl⟩ := h
  exact ⟨rfl, fun _ => ⟨rfl, by simp [Request.payload]⟩⟩

theorem eventsRead (tag : Byte) (group : Byte) : Statement (.eventsRead tag group) := by
  refine ⟨noWord _, ?_⟩
  intro t r h
  simp only [asRequest, Option.some.injEq, Prod.mk.injEq] at h
  obtain ⟨-, rfl⟩ := h
  exact ⟨rfl, fun _ => ⟨rfl, by simp [Request.payload]⟩⟩

theorem eventsClear (tag : Byte) (group : Byte) (latches : Half) : Statement (.eventsClear tag group latches) := by
  refine ⟨noWord _, ?_⟩
  intro t r h
  simp only [asRequest, Option.some.injEq, Prod.mk.injEq] at h
  obtain ⟨-, rfl⟩ := h
  exact ⟨rfl, fun _ => ⟨rfl, by simp [Request.payload]⟩⟩

theorem eventMask (tag : Byte) (group : Byte) (masked : Half) : Statement (.eventMask tag group masked) := by
  refine ⟨noWord _, ?_⟩
  intro t r h
  simp only [asRequest, Option.some.injEq, Prod.mk.injEq] at h
  obtain ⟨-, rfl⟩ := h
  exact ⟨rfl, fun _ => ⟨rfl, by simp [Request.payload]⟩⟩

theorem sensorConfig (tag : Byte) (sensor : Byte) (edge : Byte) (change : Byte) (wake : Byte) : Statement (.sensorConfig tag sensor edge change wake) := by
  refine ⟨noWord _, ?_⟩
  intro t r h
  simp only [asRequest, Option.some.injEq, Prod.mk.injEq] at h
  obtain ⟨-, rfl⟩ := h
  exact ⟨rfl, fun _ => ⟨rfl, by simp [Request.payload]⟩⟩

theorem lamp (tag : Byte) (line : Byte) (assignment : Option Byte) (level : Option Byte) : Statement (.lamp tag line assignment level) := by
  refine ⟨noWord _, ?_⟩
  intro t r h
  simp only [asRequest, Option.some.injEq, Prod.mk.injEq] at h
  obtain ⟨-, rfl⟩ := h
  exact ⟨rfl, fun _ => ⟨rfl, by simp [Request.payload]⟩⟩

theorem beep (tag : Byte) (pattern : Byte) : Statement (.beep tag pattern) := by
  refine ⟨noWord _, ?_⟩
  intro t r h
  simp only [asRequest, Option.some.injEq, Prod.mk.injEq] at h
  obtain ⟨-, rfl⟩ := h
  exact ⟨rfl, fun _ => ⟨rfl, by simp [Request.payload]⟩⟩

theorem saveSettings (tag : Byte) : Statement (.saveSettings tag) := by
  refine ⟨noWord _, ?_⟩
  intro t r h
  simp only [asRequest, Option.some.injEq, Prod.mk.injEq] at h
  obtain ⟨-, rfl⟩ := h
  exact ⟨rfl, fun _ => ⟨rfl, by simp [Request.payload]⟩⟩

theorem reset (tag : Byte) : Statement (.reset tag) := by
  refine ⟨noWord _, ?_⟩
  intro t r h
  simp only [asRequest, Option.some.injEq, Prod.mk.injEq] at h
  obtain ⟨-, rfl⟩ := h
  exact ⟨rfl, fun _ => ⟨rfl, by simp [Request.payload]⟩⟩

theorem powerOnReset (bselHigh : Bool) (levels : SensorLevels) : Statement (.powerOnReset bselHigh levels) := by
  exact ⟨noWord _, fun _ _ h => by simp [asRequest] at h⟩

theorem receiveByte (b : Byte) : Statement (.receiveByte b) := by
  exact ⟨noWord _, fun _ _ h => by simp [asRequest] at h⟩

theorem brokenByte : Statement (.brokenByte) := by
  exact ⟨noWord _, fun _ _ h => by simp [asRequest] at h⟩

theorem partialFrameTimeout : Statement (.partialFrameTimeout) := by
  exact ⟨noWord _, fun _ _ h => by simp [asRequest] at h⟩

theorem takeRequest : Statement (.takeRequest) := by
  exact ⟨noWord _, fun _ _ h => by simp [asRequest] at h⟩

theorem frameSent : Statement (.frameSent) := by
  exact ⟨noWord _, fun _ _ h => by simp [asRequest] at h⟩

theorem headerReadEnd (bytes : List Byte) : Statement (.headerReadEnd bytes) := by
  exact ⟨noWord _, fun _ _ h => by simp [asRequest] at h⟩

theorem tableLoadEnd (bytes : List Byte) : Statement (.tableLoadEnd bytes) := by
  exact ⟨noWord _, fun _ _ h => by simp [asRequest] at h⟩

theorem directoryReadEnd (bytes : List Byte) : Statement (.directoryReadEnd bytes) := by
  exact ⟨noWord _, fun _ _ h => by simp [asRequest] at h⟩

theorem bucketReadEnd (bytes : List Byte) : Statement (.bucketReadEnd bytes) := by
  exact ⟨noWord _, fun _ _ h => by simp [asRequest] at h⟩

theorem nvRecordReadEnd (bytes : List Byte) : Statement (.nvRecordReadEnd bytes) := by
  exact ⟨noWord _, fun _ _ h => by simp [asRequest] at h⟩

theorem pageWriteEnd : Statement (.pageWriteEnd) := by
  exact ⟨noWord _, fun _ _ h => by simp [asRequest] at h⟩

theorem pageReadbackEnd (bytes : List Byte) : Statement (.pageReadbackEnd bytes) := by
  exact ⟨noWord _, fun _ _ h => by simp [asRequest] at h⟩

theorem supervisionTick (busMoved : Bool) : Statement (.supervisionTick busMoved) := by
  exact ⟨noWord _, fun _ _ h => by simp [asRequest] at h⟩

theorem stall : Statement (.stall) := by
  exact ⟨noWord _, fun _ _ h => by simp [asRequest] at h⟩

theorem encoderEdge (axis : Axis) : Statement (.encoderEdge axis) := by
  exact ⟨noWord _, fun _ _ h => by simp [asRequest] at h⟩

theorem motionSettled : Statement (.motionSettled) := by
  exact ⟨noWord _, fun _ _ h => by simp [asRequest] at h⟩

theorem hammerPulseEnd : Statement (.hammerPulseEnd) := by
  exact ⟨noWord _, fun _ _ h => by simp [asRequest] at h⟩

theorem hammerHome : Statement (.hammerHome) := by
  exact ⟨noWord _, fun _ _ h => by simp [asRequest] at h⟩

theorem lifterDone (which : Lifter) : Statement (.lifterDone which) := by
  exact ⟨noWord _, fun _ _ h => by simp [asRequest] at h⟩

theorem platenStep : Statement (.platenStep) := by
  exact ⟨noWord _, fun _ _ h => by simp [asRequest] at h⟩

theorem parkMoveDone : Statement (.parkMoveDone) := by
  exact ⟨noWord _, fun _ _ h => by simp [asRequest] at h⟩

theorem wheelHomingEnd (id : BitVec 5) : Statement (.wheelHomingEnd id) := by
  exact ⟨noWord _, fun _ _ h => by simp [asRequest] at h⟩

theorem sensorLevelChange (sensor : Sensor) (level : Bool) : Statement (.sensorLevelChange sensor level) := by
  exact ⟨noWord _, fun _ _ h => by simp [asRequest] at h⟩

theorem idleTimerExpiry : Statement (.idleTimerExpiry) := by
  exact ⟨noWord _, fun _ _ h => by simp [asRequest] at h⟩

theorem standbyEntry : Statement (.standbyEntry) := by
  exact ⟨noWord _, fun _ _ h => by simp [asRequest] at h⟩

theorem blinkTimerExpiry : Statement (.blinkTimerExpiry) := by
  exact ⟨noWord _, fun _ _ h => by simp [asRequest] at h⟩

theorem displaySendBegin : Statement (.displaySendBegin) := by
  exact ⟨noWord _, fun _ _ h => by simp [asRequest] at h⟩

theorem displaySendEnd : Statement (.displaySendEnd) := by
  exact ⟨noWord _, fun _ _ h => by simp [asRequest] at h⟩

theorem gapTimerExpiry : Statement (.gapTimerExpiry) := by
  exact ⟨noWord _, fun _ _ h => by simp [asRequest] at h⟩

theorem overlayTimeout : Statement (.overlayTimeout) := by
  exact ⟨noWord _, fun _ _ h => by simp [asRequest] at h⟩

theorem beeperTimerExpiry : Statement (.beeperTimerExpiry) := by
  exact ⟨noWord _, fun _ _ h => by simp [asRequest] at h⟩

end Sys2Proof.Laws.Shape
end

