-- ==== Sys2Proof/Laws/Sequencer.lean ====
section
/-! SUPPORT. The sequencer's step once over: the suspend set of R65, the taking of the head job and one piece of its work (R66). -/

namespace Sys2Proof.Machine

/-- The two readings of a RIBBON reason agree. -/
theorem ribbonReason_iff (s : State) : ribbonReason s ↔ (s.mon.levels.ribbonEnd && ribbonWaits s) = true := by
  unfold ribbonReason ribbonWaits
  rcases s.seq.jobs with _ | ⟨⟨k, mk⟩, js⟩
  · simp
  · cases k <;> simp

/-- The two readings of a TAPE reason agree. -/
theorem tapeReason_iff (s : State) : tapeReason s ↔ (s.mon.levels.tapeEnd && tapeWaits s) = true := by
  unfold tapeReason tapeWaits
  rcases s.seq.jobs with _ | ⟨⟨k, mk⟩, js⟩
  · simp
  · cases k <;> simp

/-- Without a reason the suspend set is empty and no latch is set. -/
theorem unsuspended.refreshSuspend_eq {s : State} (h : unsuspended s) :
    refreshSuspend s = { s with seq := { s.seq with suspend := {} } } := by
  obtain ⟨-, -, hp, hr, ht⟩ := h
  rw [ribbonReason_iff, Bool.not_eq_true] at hr
  rw [tapeReason_iff, Bool.not_eq_true] at ht
  simp [refreshSuspend, hr, ht, setLatchIf, hp]

/-- How the sequencer goes on from one piece of work of the job in flight: it completes the job and goes on, looks again after a pause,
or waits for the motion that it began. -/
def afterWork (n : Nat) (r : State × Bool) : State :=
  if r.2 then seqLoop n (completeHead r.1) else if r.1.seq.phase = .paused then seqLoop n r.1 else r.1

theorem withHeadInFlight_flight {s : State} (h : s.seq.inFlight = true) :
    withHeadInFlight s = { s with seq := { s.seq with mech := .busy, suspend := {} } } := by
  simp [withHeadInFlight, h]

/-- The head job in flight, at rest or paused, is worked. -/
theorem worksHead.loop_flight {s : State} (n : Nat) (h : worksHead s) (hi : s.seq.inFlight = true) :
    seqLoop (n + 1) s = afterWork n (workHead (withHeadInFlight s)) := by
  have hr := h.1.refreshSuspend_eq
  obtain ⟨⟨hs, hf, -⟩, hp⟩ := h
  rw [withHeadInFlight_flight hi]
  rcases hs with hs | hs | hs <;> rcases hp hi with hp | hp <;>
    (rw [seqLoop]; simp only [hs, hr, hf, hi, hp]; rfl)

/-- The head job is taken, and looked at again. -/
theorem worksHead.loop_take {s : State} (n : Nat) (h : worksHead s) (hi : s.seq.inFlight = false) (hj : s.seq.jobs ≠ []) :
    seqLoop (n + 1) s = seqLoop n (withHeadInFlight s) := by
  have hr := h.1.refreshSuspend_eq
  obtain ⟨⟨hs, hf, -⟩, -⟩ := h
  have e : withHeadInFlight s = takeHead { s with seq := { s.seq with suspend := {} } } := by
    simp [withHeadInFlight, hi, takeHead]
  have hj' : s.seq.jobs.isEmpty = false := by simpa using hj
  rw [e]
  rcases hs with hs | hs | hs <;> (rw [seqLoop]; simp only [hs, hr, hf, hi, hj']; rfl)

/-- With the head in flight the head may still be worked, and nothing more is taken. -/
theorem worksHead.flight {s : State} (h : worksHead s) :
    worksHead (withHeadInFlight s) ∧ (withHeadInFlight s).seq.inFlight = true
      ∧ withHeadInFlight (withHeadInFlight s) = withHeadInFlight s := by
  obtain ⟨⟨-, hf, -, hr, ht⟩, hp⟩ := h
  cases hi : s.seq.inFlight
  · have e : withHeadInFlight s
        = { s with
            seq :=
              { s.seq with
                mech := .busy, suspend := {}, inFlight := true, flightSetting := s.seq.setting, phase := .rest
                parking := false, mark := false } } := by
      simp [withHeadInFlight, hi]
    rw [e]
    exact ⟨⟨⟨.inr (.inl rfl), hf, rfl, fun h => h.2.2.elim nofun nofun, fun h => h.2.2.elim nofun nofun⟩, fun _ => .inl rfl⟩, rfl,
      by simp [withHeadInFlight]⟩
  · rw [withHeadInFlight_flight hi]
    exact ⟨⟨⟨.inr (.inl rfl), hf, rfl, hr, ht⟩, fun _ => hp hi⟩, hi, by simp [withHeadInFlight, hi]⟩

/-- With a job at the head and no reason to suspend, the head job is put in flight and worked. -/
theorem worksHead.loop {s : State} (n : Nat) (h : worksHead s) (hj : s.seq.jobs ≠ []) :
    ∃ m, n ≤ m ∧ seqLoop (n + 2) s = afterWork m (workHead (withHeadInFlight s)) := by
  cases hi : s.seq.inFlight
  · obtain ⟨a, b, c⟩ := h.flight
    exact ⟨n, Nat.le_refl n, by rw [h.loop_take (n + 1) hi hj, a.loop_flight n b, c]⟩
  · exact ⟨n + 1, Nat.le_succ n, h.loop_flight (n + 1) hi⟩

end Sys2Proof.Machine
end

