-- ==== Sys2Proof/Laws/Text.lean ====
section
/-! SUPPORT. What the small functions of the text do, each said once: lines reclaimed, gap extras, cells placed edge to edge, the word tracker
under verdicts and hand-offs, and the entries of a user-list record. -/

namespace Sys2Proof.Machine

/-! ### Reclaiming (R8) -/

/-- The lines reclaimed are DONE and were needed, one after the other; what stops the reclaiming is enough room or a line not DONE. -/
theorem reclaimCount_spec (need : Nat) (ls : List Line) : ∀ free n, n = reclaimCount need free ls →
    n ≤ ls.length
    ∧ (∀ m l, m < n → ls[m]? = some l →
        l.state = .done ∧ free + ((ls.take m).map fun l => l.cells.length).sum < need)
    ∧ (n < ls.length → need ≤ free + ((ls.take n).map fun l => l.cells.length).sum
        ∨ ∃ l, ls[n]? = some l ∧ l.state ≠ .done) := by
  induction ls with
  | nil => intro free n h; simp [reclaimCount] at h; subst h; simp
  | cons l ls ih =>
    intro free n h
    rw [reclaimCount] at h
    split at h
    · subst h; simp; left; assumption
    · split at h
      · rename_i h1 h2
        obtain ⟨a, b, c⟩ := ih (free + l.cells.length) _ rfl
        generalize reclaimCount need (free + l.cells.length) ls = k at h a b c
        rw [Nat.add_comm] at h
        subst h
        refine ⟨by simp; omega, ?_, ?_⟩
        · intro m x hm hx
          cases m with
          | zero => simp at hx; subst hx; exact ⟨h2, by simpa using h1⟩
          | succ m =>
            obtain ⟨d, e⟩ := b m x (by omega) (by simpa using hx)
            refine ⟨d, ?_⟩
            simp only [List.take_succ_cons, List.map_cons, List.sum_cons]; omega
        · intro hl
          rcases c (by simpa using hl) with c | ⟨x, c1, c2⟩
          · left; simp only [List.take_succ_cons, List.map_cons, List.sum_cons]; omega
          · right; exact ⟨x, by simpa using c1, c2⟩
      · rename_i h1 h2
        subst h; simp; right; exact h2

/-! ### Gap extras (R37, R43) -/

/-- The extras of the cells behind `pre`, from the extras of the whole row of cells. -/
theorem spreadExtras_getElem? (cs : List Cell) : ∀ (pre : List Cell) (xs : List Nat) (i : Nat), i < cs.length →
    (spreadExtras (pre.any fun c => c.kind == .glyph)
        (xs.drop ((List.range pre.length).countP (interiorSpace (pre ++ cs)))) cs)[i]?
      = some (if interiorSpace (pre ++ cs) (pre.length + i) then
          xs.getD ((List.range (pre.length + i)).countP (interiorSpace (pre ++ cs))) 0 else 0) := by
  induction cs with
  | nil => intro pre xs i h; simp at h
  | cons c cs ih =>
    intro pre xs i h
    have hint : interiorSpace (pre ++ c :: cs) pre.length
        = decide (c.kind = .space ∧ (pre.any fun c => c.kind == .glyph) = true
            ∧ (cs.any fun d => d.kind == .glyph) = true) := by
      unfold interiorSpace
      rw [Bool.eq_iff_iff]; simp [and_assoc]
    have hcount : (List.range (pre ++ [c]).length).countP (interiorSpace (pre ++ c :: cs))
        = (List.range pre.length).countP (interiorSpace (pre ++ c :: cs))
          + (if interiorSpace (pre ++ c :: cs) pre.length then 1 else 0) := by
      rw [List.length_append, List.length_singleton, List.range_succ, List.countP_append]; simp [List.countP_cons]
    rw [spreadExtras]
    cases i with
    | zero =>
      rw [Nat.add_zero, hint]
      split
      · rename_i hc
        simp only [List.getElem?_cons_zero, hc, and_self, decide_true, if_true]
        congr 1; rw [List.headD_eq_head?_getD, List.head?_drop, List.getD_eq_getElem?_getD]
      · rename_i hc; simp only [List.getElem?_cons_zero, hc, decide_false, Bool.false_eq_true, if_false]
    | succ i =>
      have := ih (pre ++ [c]) xs i (by simpa using h)
      rw [List.append_assoc, List.singleton_append, hcount] at this
      rw [show pre.length + (i + 1) = (pre ++ [c]).length + i by simp; omega, ← this]
      split
      · rename_i hc
        rw [List.getElem?_cons_succ, hint, if_pos (by simpa using hc)]
        have : (pre ++ [c]).any (fun c => c.kind == .glyph) = pre.any fun c => c.kind == .glyph := by simp [hc.1]
        rw [this, List.tail_drop]
      · rename_i hc
        rw [List.getElem?_cons_succ, hint, if_neg (by simpa using hc)]
        have : (pre ++ [c]).any (fun c => c.kind == .glyph)
            = ((pre.any fun c => c.kind == .glyph) || c.kind == .glyph) := by simp
        rw [this]; rfl

/-- Each cell's extra is its gap's part of the placement record. -/
theorem cellExtras_eq (l : Line) : l.cellExtras = (List.range l.cells.length).map (gapExtra l) := by
  apply List.ext_getElem?
  intro i
  by_cases h : i < l.cells.length
  · have := spreadExtras_getElem? l.cells [] (l.placement.getD []) i h
    simpa [Line.cellExtras, gapExtra, gapsBefore, h] using this
  · rw [List.getElem?_eq_none, List.getElem?_eq_none]
    · simp; omega
    · unfold Line.cellExtras; rw [length_spreadExtras]; omega

/-- The end of the escapement of the last released cell, behind which every cell is HELD (R117, log 18). -/
theorem releasedEnd_eq (l : Line) (pre post : List Cell) (y : Cell) (hc : l.cells = pre ++ y :: post) (hy : y.state ≠ .held)
    (hr : y.isReturn = false) (hp : ∀ x ∈ post, x.state = .held) :
    l.releasedEnd = y.position.getD l.left + y.width + gapExtra l pre.length := by
  have held : ∀ (post : List Cell) (xs : List Nat) (e : Nat), (∀ x ∈ post, x.state = .held) →
      (post.zip xs).foldl (fun e (ce : Cell × Nat) =>
        if ce.1.state ≠ .held ∧ ce.1.isReturn = false then ce.1.position.getD l.left + ce.1.width + ce.2 else e) e = e := by
    intro post
    induction post with
    | nil => intro xs e _; rfl
    | cons c cs ih =>
      intro xs e h
      cases xs with
      | nil => rfl
      | cons x xs =>
        rw [List.zip_cons_cons, List.foldl_cons, if_neg (by simp [h c (by simp)])]
        exact ih xs e fun c hc => h c (by simp [hc])
  have hz : l.cells.zip l.cellExtras
      = pre.zip ((List.range pre.length).map (gapExtra l)) ++ (y, gapExtra l pre.length)
          :: post.zip ((List.range post.length).map fun i => gapExtra l (pre.length + 1 + i)) := by
    have : (List.range (pre ++ y :: post).length).map (gapExtra l)
        = (List.range pre.length).map (gapExtra l) ++ gapExtra l pre.length
            :: (List.range post.length).map fun i => gapExtra l (pre.length + 1 + i) := by
      rw [List.length_append, List.length_cons, show pre.length + (post.length + 1) = (pre.length + 1) + post.length by omega,
        List.range_add, List.map_append, List.range_succ, List.map_append, List.map_map]
      simp [Function.comp_def]
    rw [cellExtras_eq, hc, this, List.zip_append (by simp)]
    rfl
  unfold Line.releasedEnd
  rw [hz, List.foldl_append, List.foldl_cons, if_pos ⟨hy, hr⟩]
  exact held post _ _ hp

/-! ### Cells placed edge to edge -/

theorem placeFrom_append (p : Cell → Bool) (a b : List Cell) :
    ∀ e, placeFrom p e (a ++ b) = placeFrom p e a ++ placeFrom p (e + cellsWidth (a.filter p)) b := by
  induction a with
  | nil => intro e; simp [placeFrom, cellsWidth]
  | cons c cs ih =>
    intro e; rw [List.cons_append, placeFrom, placeFrom]
    split
    · rename_i h; rw [ih]; simp [h, cellsWidth, Nat.add_assoc]
    · rename_i h; rw [ih]; simp [h, cellsWidth]

theorem length_placeFrom (p : Cell → Bool) (a : List Cell) : ∀ e, (placeFrom p e a).length = a.length := by
  induction a with
  | nil => intro e; rfl
  | cons c cs ih => intro e; rw [placeFrom]; split <;> simp [ih]

/-- A row of cells that are all placed stands edge to edge from its start. -/
theorem placeFrom_getElem? (p : Cell → Bool) (a : List Cell) (h : ∀ c ∈ a, p c = true) : ∀ (e i : Nat) (c : Cell),
    a[i]? = some c → (placeFrom p e a)[i]? = some { c with position := some (e + cellsWidth (a.take i)) } := by
  induction a with
  | nil => intro e i c hc; simp at hc
  | cons x xs ih =>
    intro e i c hc
    rw [placeFrom, if_pos (h x (by simp))]
    cases i with
    | zero => simp at hc; subst hc; simp [cellsWidth]
    | succ i =>
      rw [List.getElem?_cons_succ, ih (fun c hc => h c (by simp [hc])) _ i c (by simpa using hc)]
      simp [cellsWidth, Nat.add_assoc]

/-! ### The word tracker (R23, R24) -/

/-- The open word and the pending apostrophe. -/
def LineStore.tracker (s : LineStore) : Option WordRef × Option Nat := (s.openWord, s.pendingApostrophe)

theorem store_beep (p : BeepPattern) (s : State) : (beep p s).store = s.store := by unfold beep; split <;> rfl

@[simp] theorem tracker_applyVerdict (w : WordRef) (ls : List Nat) (v : Verdict) (s : State) :
    (applyVerdict w ls v s).store.tracker = s.store.tracker := by
  cases v <;> simp only [applyVerdict, store_beep, setLatch] <;> rfl

theorem tracker_takeChecksFuel (n : Nat) : ∀ s : State, (takeChecksFuel n s).store.tracker = s.store.tracker := by
  induction n with
  | zero => intro s; rfl
  | succ n ih =>
    intro s
    rw [takeChecksFuel]
    split
    · split
      · rfl
      · split
        · rw [ih, tracker_applyVerdict]; rfl
        · rfl
    · rfl

/-- A hand-off touches neither the open word nor the pending apostrophe. -/
@[simp] theorem tracker_handOff (w : WordRef) (codes : List Nat) (before : Option Nat) (d : Nat) (s : State) :
    (handOff w codes before d s).store.tracker = s.store.tracker := by
  unfold handOff takeChecks
  simp only
  repeat' split
  all_goals first
    | exact tracker_applyVerdict _ _ _ _
    | exact tracker_takeChecksFuel _ _

/-- A word that completes leaves no word open and no apostrophe pending. -/
theorem tracker_completeWord (d : Nat) (s : State) (h : s.store.openWord ≠ none) :
    (completeWord d s).store.tracker = (none, none) := by
  unfold completeWord
  cases hw : s.store.openWord with
  | none => exact absurd hw h
  | some w => simp only; rw [tracker_handOff]; rfl

/-! ### The bytes of a user-list record (Table 11-6) -/

theorem byteSum_append (a b : List Byte) : byteSum (a ++ b) = byteSum a + byteSum b := by
  have : ∀ (l : List Byte) (z : Byte), l.foldl (· + ·) z = z + l.foldl (· + ·) 0 := by
    intro l
    induction l with
    | nil => intro z; simp
    | cons x xs ih => intro z; rw [List.foldl_cons, List.foldl_cons, ih, ih (0 + x), show (0 : Byte) + x = x from BitVec.zero_add x,
      BitVec.add_assoc]
  unfold byteSum
  rw [List.foldl_append, this b]

theorem byteAt_add (bs : List Byte) (k j : Nat) : byteAt bs (k + j) = byteAt (bs.drop k) j := by
  unfold byteAt; simp [List.getD_eq_getElem?_getD, List.getElem?_drop]

/-- An entry in range is read as a word exactly when the 25 bytes are those written for that word, and the word is good (R152). -/
theorem parseEntry_iff (bs : List Byte) (i : Nat) (w : List Nat) (hl : 1 + 25 * i + 25 ≤ bs.length) :
    parseEntry bs i = some w ↔
      (2 ≤ w.length ∧ w.length ≤ 24 ∧ ∀ v ∈ w, 1 ≤ v ∧ v ≤ 27)
        ∧ bs.drop (1 + 25 * i) = listEntry w ++ bs.drop (1 + 25 * (i + 1)) := by
  unfold parseEntry
  simp only [Nat.add_assoc (1 + 25 * i)]
  rw [show byteAt bs (1 + 25 * i) = byteAt (bs.drop (1 + 25 * i)) 0 from byteAt_add bs (1 + 25 * i) 0]
  simp only [byteAt_add bs (1 + 25 * i)]
  rw [show 1 + 25 * (i + 1) = (1 + 25 * i) + 25 by omega]
  rw [← List.drop_drop (i := 25)]
  have hd : 25 ≤ (bs.drop (1 + 25 * i)).length := by simp; omega
  simp only [← List.drop_drop (i := 1 + byteAt (List.drop (1 + 25 * i) bs) 0) (l := bs)]
  generalize bs.drop (1 + 25 * i) = d at hd
  rcases d with _ | ⟨h, t⟩
  · simp at hd
  have ht : 24 ≤ t.length := by simp at hd; exact hd
  have b0 : byteAt (h :: t) 0 = h.toNat := rfl
  have b1 : ∀ j, byteAt (h :: t) (1 + j) = byteAt t j := by intro j; rw [Nat.add_comm]; rfl
  have d1 : ∀ j, List.drop (1 + j) (h :: t) = t.drop j := by intro j; rw [Nat.add_comm]; rfl
  simp only [b0, b1, d1, show List.drop 25 (h :: t) = t.drop 24 from rfl]
  have hv : ∀ n, n ≤ 24 → (List.range n).map (fun j => byteAt t j) = (t.take n).map (·.toNat) := by
    intro n hn
    apply List.ext_getElem?
    intro k
    by_cases hk : k < n
    · simp [hk, byteAt, List.getD_eq_getElem?_getD, List.getElem?_eq_getElem (show k < t.length by omega)]
    · simp [hk, List.getElem?_take]
  constructor
  · intro hh
    split at hh
    · rename_i hc
      obtain ⟨c1, c2, c3, c4⟩ := hc
      simp only [Option.some.injEq] at hh
      rw [hv _ c2] at hh c3
      have hlen : w.length = h.toNat := by rw [← hh]; simp; omega
      refine ⟨⟨by omega, by omega, ?_⟩, ?_⟩
      · rw [List.all_eq_true] at c3
        intro v hvm; rw [← hh] at hvm; simpa using c3 v hvm
      · unfold listEntry
        rw [List.cons_append]
        congr 1
        · rw [hlen]; simp
        · have e1 : w.map (BitVec.ofNat 8) = t.take h.toNat := by
            rw [← hh, List.map_map]
            conv => rhs; rw [← List.map_id (t.take h.toNat)]
            apply List.map_congr_left; intro v _; simp
          have e2 : (t.drop h.toNat).take (24 - h.toNat) = List.replicate (24 - w.length) 0 := by
            rw [List.eq_replicate_iff]
            refine ⟨by simp; omega, ?_⟩
            intro b hb; rw [List.all_eq_true] at c4; simpa using c4 b hb
          rw [e1, ← e2]
          have : t = t.take h.toNat ++ (t.drop h.toNat) := (List.take_append_drop _ _).symm
          have e3 : t.drop h.toNat = (t.drop h.toNat).take (24 - h.toNat) ++ (t.drop h.toNat).drop (24 - h.toNat) :=
            (List.take_append_drop _ _).symm
          rw [List.drop_drop, show h.toNat + (24 - h.toNat) = 24 by omega] at e3
          rw [List.append_assoc, ← e3]; exact this
    · simp at hh
  · rintro ⟨⟨g1, g2, g3⟩, e⟩
    unfold listEntry at e
    rw [List.cons_append] at e
    obtain ⟨e1, e2⟩ := List.cons.inj e
    have hlen : h.toNat = w.length := by rw [e1]; simp; omega
    have tk : (t.take h.toNat).map (·.toNat) = w := by
      rw [e2, hlen, List.append_assoc, List.take_append_of_le_length (by simp), List.take_of_length_le (by simp),
        List.map_map]
      conv => rhs; rw [← List.map_id w]
      apply List.map_congr_left
      intro v hv'; have := g3 v hv'; simp [Function.comp]; omega
    have dk : (t.drop h.toNat).take (24 - h.toNat) = List.replicate (24 - w.length) 0 := by
      rw [e2, hlen, List.append_assoc, List.drop_append_of_le_length (by simp),
        List.drop_of_length_le (l := w.map _) (by simp), List.nil_append, List.take_append_of_le_length (by simp), List.take_of_length_le (by simp)]
    rw [hv _ (by omega), tk, dk, if_pos]
    refine ⟨by omega, by omega, ?_, ?_⟩
    · rw [List.all_eq_true]; intro v hv'; simpa using g3 v hv'
    · simp

end Sys2Proof.Machine
end

