-- ==== Sys2Proof/Tests/Slice0.lean ====
section
/-! SUPPORT. Tests against the worked examples of spec/, the WellFormed smoke test, and for every statement with
hypotheses a witness: concrete states and operands that meet them, clause by clause at the edges of their ranges. -/

namespace Sys2Proof.Tests

open Sys2Proof Sys2Proof.Machine

/-! ### Small states -/

/-- The part after start-up: both records read, homed, READY, nothing waiting. -/
def idle : State :=
  { State.reset with
    mem := { State.reset.mem with settingsRead := true, listRead := true, headerWaiting := false, nv := [] }
    seq := { State.reset.seq with mech := .ready, carriage := some 120, petal := some 0 }
    disp := { State.reset.disp with state := .on } }

/-- The state after an outcome. -/
def after (o : Host.Outcome State Fault Refusal) : State :=
  match o with
  | .next t => t
  | _ => State.reset

/-- `s` with a sequencer changed. -/
def withSeq (s : State) (f : Sequencer → Sequencer) : State := { s with seq := f s.seq }

/-- `s` with a memory link changed. -/
def withMem (s : State) (f : MemoryLink → MemoryLink) : State := { s with mem := f s.mem }

/-- `s` with a transaction in flight. -/
def onBus (j : BusJob) (mark : Bool) (s : State) : State :=
  withMem s fun m => { m with transaction := some { job := j, mark := mark } }

/-- `s` with a control link changed. -/
def withLink (s : State) (f : ControlLink → ControlLink) : State := { s with link := f s.link }

/-- `s` in standby. -/
def asleep (s : State) : State := { s with mon := { s.mon with power := .standby } }

/-- A cell of the OPEN line. -/
def cell (n : Nat) (k : CellKind) (st : CellState) : Cell := { seq := n, kind := k, code := 97, width := 12, state := st }

/-- `s` with these cells in the OPEN line. -/
def holding (cs : List Cell) (s : State) : State :=
  { s with store := { s.store with openLine := { s.store.openLine with cells := cs } } }

/-- A closed line. -/
def closed (reach : Bool) (cs : List Cell) : Line :=
  { freshLine {} with state := .closed, reach := reach, cells := cs }

/-- `s` with earlier lines. -/
def behind (ls : List Line) (s : State) : State := { s with store := { s.store with earlier := ls } }

/-- `s` with jobs. -/
def queued (js : List JobKind) (s : State) : State :=
  withSeq s fun q => { q with jobs := js.map fun k => { kind := k } }

/-- `s` with a homing. -/
def homingAt (h : Homing) (s : State) : State := withSeq s fun q => { q with mech := .homing, homing := some h }

/-- `s` with a wait record. -/
def waiting (d : Option LoadRequest) (s : State) : State :=
  { s with
    seq := { s.seq with mech := .wheelWait }
    mem := { s.mem with wait := some { reason := .mismatch, hub := 7, decision := d, table := s.mem.active } } }

/-- `n` frames. -/
def frames (n : Nat) : List Frame := List.replicate n { kind := 1, tag := 0, payload := [] }

/-- A request is taken at once in `idle`. -/
theorem taken_idle : Taken idle := ⟨rfl, rfl, rfl⟩

/-! ### The WellFormed smoke test: one ill-formed term for each check -/

theorem test_ill_keys : (Instr.keys 0 (List.replicate 17 ⟨97, false, false, false⟩)).wellFormed = false := by decide
theorem test_ill_delete : (Instr.userWordDelete 0 (List.replicate 33 97)).wellFormed = false := by decide
theorem test_ill_overlay : (Instr.displayOverlay 0 0 1 (List.replicate 31 65)).wellFormed = false := by decide
theorem test_ill_header : (Instr.headerReadEnd [0x4C, 0x4A]).wellFormed = false := by decide
theorem test_ill_table : (Instr.tableLoadEnd (List.replicate 64 0)).wellFormed = false := by decide
theorem test_ill_directory : (Instr.directoryReadEnd [0, 0]).wellFormed = false := by decide
set_option maxRecDepth 8000 in
theorem test_ill_bucket : (Instr.bucketReadEnd (List.replicate 257 0)).wellFormed = false := by decide
theorem test_ill_record : (Instr.nvRecordReadEnd (List.replicate 65 0)).wellFormed = false := by decide
theorem test_ill_page : (Instr.pageReadbackEnd (List.replicate 15 0)).wellFormed = false := by decide
theorem test_ill_request_keys : (Request.keys (List.replicate 17 ⟨97, false, false, false⟩)).wellFormed = false := by
  decide
theorem test_ill_request_delete : (Request.userWordDelete (List.replicate 33 97)).wellFormed = false := by decide
theorem test_ill_request_overlay : (Request.displayOverlay 0 1 (List.replicate 31 65)).wellFormed = false := by decide

/-! ### Worked examples of the spec -/

/-- 10_the_control_link, "two frames on the line": STATUS, tag 0x17. -/
theorem test_status_frame : frameLine 0x02 0x17 [] = [0xD4, 0x02, 0x02, 0x17, 0xE5] := by decide

/-- 10_the_control_link, "two frames on the line": KEYS, tag 5, code 212, escaped. -/
theorem test_keys_frame : frameLine 0x03 0x05 [0xD4, 0x00] = [0xD4, 0x04, 0x03, 0x05, 0xD5, 0xF4, 0x00, 0x20] := by decide

set_option maxRecDepth 8000 in
/-- The eight bytes of that KEYS frame arrive as one frame. -/
theorem test_keys_received :
    ((after (takeBytes [0xD4, 0x04, 0x03, 0x05, 0xD5, 0xF4, 0x00, 0x20] State.reset)).link.input
      = [{ kind := 3, tag := 5, payload := [0xD4, 0x00] }]) := by decide

set_option maxRecDepth 8000 in
/-- The same frame with its code unescaped: two frame errors, then HUNTING. -/
theorem test_unescaped_start :
    (fun k : ControlLink => (k.input, k.errors, k.receiver))
      (after (takeBytes [0xD4, 0x04, 0x03, 0x05, 0xD4, 0x00, 0x20] State.reset)).link = ([], 2, .hunting) := by decide

/-- The one key of that frame (Table 11-2). -/
theorem test_keys_request : decodeRequest 0x03 [0xD4, 0x00] = .ok (.keys [⟨212, false, false, false⟩]) := rfl

/-- An even KEYS payload passes the link, an odd one does not (R188). -/
theorem test_keys_odd : decodeRequest 0x03 [0xD4] = .error .badLength := rfl

/-- Table 4-3. -/
theorem test_wheel_turns :
    wheelTurn 95 3 = some { target := 3, clockwise := true, stepsLeft := 32 }
      ∧ wheelTurn 3 60 = some { target := 60, clockwise := false, stepsLeft := 172 }
      ∧ wheelTurn 60 10 = some { target := 10, clockwise := true, stepsLeft := 200 }
      ∧ wheelTurn 40 40 = none ∧ wheelTurn 0 90 = some { target := 90, clockwise := false, stepsLeft := 40 } := by decide

/-- Table 4-4, its corners. -/
theorem test_pulses : pulseTicks 1 1 = 14 ∧ pulseTicks 1 4 = 32 ∧ pulseTicks 7 1 = 38 ∧ pulseTicks 5 3 = 42 := by decide

/-- Table 6-2. -/
theorem test_bucket_number : bucketNumber [20, 8, 5] = 3512 := by decide

/-- The part with the lookup of "the" on the bus, the directory at 1024. -/
def lookupOnBus (bucket : Option Nat) : State :=
  { State.reset with
    spell := { State.reset.spell with lookup := some { letters := [20, 8, 5], bucket := bucket, stale := false } }
    mem :=
      { State.reset.mem with
        header := some { revision := 1, directory := 1024, wheels := [] }
        transaction := some { job := .dictionary, mark := false } } }

/-- The addresses of the lookup of "the" (6.3, worked example). -/
theorem test_lookup_addresses :
    (busRun (lookupOnBus none)).map (fun r => (r.address, r.count)) = some (11560, 3)
      ∧ (busRun (lookupOnBus (some 52000))).map (fun r => (r.address, r.count)) = some (52000, 256) := by decide

/-- Table 6-3: an entry of 4 letters, then "the". -/
theorem test_bucket_scan :
    scanBucket [20, 8, 5] [4, 1, 2, 3, 4, 3, 20, 8, 5] 257 0 = some true
      ∧ scanBucket [20, 8, 5] [4, 1, 2, 3, 4] 257 0 = none ∧ scanBucket [20, 8, 5] [4, 1, 2, 3, 4, 0] 257 0 = some false := by
  decide

/-- Table 8-3. -/
theorem test_window :
    windowStart 29 0 = 0 ∧ windowStart 30 0 = 6 ∧ windowStart 36 6 = 12 ∧ windowStart 14 12 = 12 ∧ windowStart 13 12 = 5
      ∧ windowStart 0 5 = 0 ∧ windowStart 59 0 = 35 := by decide

/-- The PS wheel of 02_layout_and_escapement. -/
def psWheel : WheelTable where
  id := 9
  kind := .ps
  spaceWidth := 6
  underscore := 95
  petals := (List.range 100).map fun p =>
    if p = 12 then { code := 85, width := 14, level := 5 } else if p = 40 then { code := 101, width := 9, level := 3 }
    else if p = 71 then { code := 95, width := 6, level := 3 } else if p = 88 then { code := 96, width := 6, level := 2 }
    else if p = 90 then { code := 94, width := 6, level := 2 } else { code := 0, width := 6, level := 1 }
  compositions := [{ composite := 234, base := 101, accent := 94 }, { composite := 217, base := 85, accent := 96 }]

/-- Table 2-3: code 234, bold and underlined. -/
theorem test_bold_composite :
    psWheel.glyphWidth 234 = 9
      ∧ (buildImpressions psWheel { seq := 1, kind := .glyph, code := 234, bold := true, underline := true, width := 9 }).map
          (fun i => (i.petal, i.offset, i.level))
        = [(40, 0, 3), (40, 1, 3), (90, 0, 2), (90, 1, 2), (71, 0, 3), (71, 1, 3), (71, 3, 3), (71, 4, 3)] := by decide

/-- The FLUSH_RIGHT example of R41: the body starts at 1488, the spaces at 1548. -/
theorem test_flush_right :
    ((closeLine
        { freshLine { left := 1000, right := 1560, alignment := .flushRight } with
          cells := [cell 1 .glyph .held, cell 2 .glyph .held, cell 3 .space .held, cell 4 .glyph .held, cell 5 .glyph .held
          , cell 6 .glyph .held, cell 7 .space .held, cell 8 .space .held, { cell 9 .ret .held with width := 0 }] } 12).1.cells.map
      (·.position.getD 0)).take 8 = [1488, 1500, 1512, 1524, 1536, 1548, 1548, 1548] := by decide

/-- R48's first example: the typing point 456 of a P10 line from 240. -/
theorem test_column :
    columnNumber builtInTable { freshLine { left := 240 } with cells := [{ cell 1 .glyph .held with position := some 444 }] } = 19 := by
  decide

/-- Table 1-11, "don't" and a space: one word of five letter cells is completed and the apostrophe is no longer pending. -/
theorem test_apostrophe :
    (fun st : LineStore => (st.openWord, st.pendingApostrophe, st.cells.map fun c => c.word.map (·.number)))
      (enterKeys ([100, 111, 110, 39, 116, 32].map fun c => ⟨c, false, false, false⟩)
          { idle with store := { idle.store with nextWord := 7 } }).2.2.store
      = (none, none, [some 7, some 7, some 7, some 7, some 7, none]) := by decide

/-- A KEYS request on the idle part: one glyph is entered at the left margin, released, and its STRIKE is taken (R19, R56, R66). -/
theorem test_key_is_struck :
    (fun s : State => (s.store.cells.map fun c => (c.code, c.position, c.state), s.seq.jobs.length, s.seq.mech, s.link.output.length))
      (after (exec (.keys 1 [⟨97, false, false, false⟩]) idle)) = ([(97, some 120, .striking)], 1, .busy, 1) := by decide

/-- A line with a segment open at a DECIMAL stop: the TAB stands at 120, the stop at 220, two cells of 12 units behind it. -/
def segmented (a : Machine.Alignment) (right : Nat) (stop : Nat) : State :=
  { idle with
    store :=
      { idle.store with
        nextSeq := 4
        openLine :=
          { freshLine { right := right, alignment := a } with
            cells :=
              [{ cell 1 .tab .held with code := 9, width := stop - 24 - 120, position := if a = .flushLeft then some 120 else none }
              , { cell 2 .glyph .held with holds := { decimal := true } }, { cell 3 .glyph .held with holds := { decimal := true } }]
            segment := some { stop := stop, point := 120, tab := 1, cells := [2, 3] } } } }

/-- R17: behind a stop past the right margin a cell that grows leftward is accepted; one that moves the typing point is refused. -/
theorem test_leftward_growth_is_not_refused :
    checkKey (segmented .flushLeft 200 220) ⟨97, false, false, false⟩ = .ok .glyph
      ∧ checkKey (segmented .flushLeft 150 155) ⟨97, false, false, false⟩
        = .error { code := .margin, latch := some .marginLock } := ⟨rfl, rfl⟩

/-- R46, R47: in a JUSTIFY line too the cells of an ended segment and its decimal character are placed, the decimal at the stop. -/
theorem test_decimal_character_is_placed :
    (enterCell .glyph ⟨46, false, false, false⟩ (segmented .justify 1320 220)).store.openLine.cells.map (·.position)
      = [some 120, some 196, some 208, some 220] := by decide

/-- R86: a homing that ends by the carriage-home sensor clears the stall mark. -/
theorem test_homing_end_clears_the_mark :
    (homeSensor true
      (withSeq (homingAt ⟨.leftward 5, .ended 0⟩ idle) fun q => { q with mark := true })).seq.mark = false := by decide

/-- R140, R157: a stale lookup whose read waits for the bus outlives a warm reset, one that is not stale goes. -/
theorem test_stale_lookup_outlives_reset :
    lookupAfterReset true (some { letters := [20, 8, 5], bucket := none, stale := true })
        = some { letters := [20, 8, 5], bucket := none, stale := true }
      ∧ lookupAfterReset true (some { letters := [20, 8, 5], bucket := none, stale := false }) = none := ⟨rfl, rfl⟩

/-- R143: hub 0 fitted while a load is in progress does not replace the active table yet. -/
theorem test_builtin_selection_waits :
    (fun s : State => (s.mem.active.id, s.seq.homingWait))
      (compareWheel 0
        (onBus (.load { id := 3, assignHub := none, homing := true }) false
          (withMem idle fun m => { m with active := psWheel, boundId := 9 }))) = (9, .otherLoad 0) := by decide

/-- R183: the REFUSE of a request leaves TXD escaped and checked: kind E1, tag D4 as D5 F4, code 3, refused kind 08. -/
theorem test_refuse_bytes :
    txBytes (withLink idle fun k => { k with output := [refuseFrame 0x08 0xD4 .badValue] })
      = some [0xD4, 0x04, 0xE1, 0xD5, 0xF4, 0x03, 0x08, 0x3C] := by decide

/-! ### Witnesses: the hypotheses of each statement, clause by clause -/

theorem pending_idle : PendingUpToDate idle := rfl

theorem witness_StepRunsFrontCommand : State.reset.pending = [] := rfl

theorem witness_RequestRowTakenAtOnceOrWaits :
    asRequest (.beep 5 1) = some (5, .beep 1) ∧ idle.mon.power = .running ∧ (asleep idle).mon.power = .standby
      ∧ (restartIdle idle).link.input = [] ∧ canTake (restartIdle idle) = true
      ∧ canTake (restartIdle State.reset) = false ∧ State.reset.link.input.length < 4
      ∧ (withLink idle fun k => { k with input := frames 3 }).link.input ≠ []
      ∧ (withLink idle fun k => { k with input := frames 3 }).link.input.length < 4
      ∧ 4 ≤ (withLink idle fun k => { k with input := frames 4 }).link.input.length
      ∧ canTake (eventEnd (asleep idle).store.unprinted (wake (asleep idle))) = true := by decide

theorem witness_WireFrameActsAsRequestRow :
    asRequest (.displayOverlay 0xD4 5 1 [65]) = some (0xD4, .displayOverlay 5 1 [65])
      ∧ (Request.displayOverlay 5 1 [65]).wellFormed = true ∧ Taken idle ∧ PendingUpToDate idle
      ∧ idle.link.receiver = .hunting ∧ idle.link.rxMark = false := ⟨rfl, rfl, taken_idle, rfl, rfl, rfl⟩

theorem witness_ReceiverReassemblesFrames :
    (List.replicate 32 (0xD4 : Byte)).length ≤ 32 ∧ ([] : List Byte).length ≤ 32
      ∧ (withLink idle fun k => { k with input := frames 3 }).link.input.length < 4
      ∧ (withLink idle fun k => { k with input := frames 3 }).mon.power = .running
      ∧ (withLink idle fun k => { k with input := frames 3 }).link.receiver = .hunting := by decide

theorem witness_RequestPayloadRoundTrip :
    (Request.keys (List.replicate 16 ⟨97, true, false, true⟩)).wellFormed = true
      ∧ (Request.userWordDelete (List.replicate 32 97)).wellFormed = true
      ∧ (Request.displayOverlay 25 11 (List.replicate 30 65)).wellFormed = true := by decide

theorem witness_ReceiverTakesEachByte :
    idle.mon.power = .running ∧ (asleep idle).mon.power = .standby ∧ idle.link.receiver = .hunting
      ∧ (withLink idle fun k => { k with receiver := .assembling [2, 1] true false }).link.receiver = .assembling [2, 1] true false
      ∧ (withLink idle fun k => { k with receiver := .assembling [2, 1] false false }).link.receiver
        = .assembling [2, 1] false false
      ∧ ((([] : List Byte) ++ [1]).headD 0).toNat = 1 ∧ ((([] : List Byte) ++ [35]).headD 0).toNat = 35
      ∧ ((([2, 2, 0x17] : List Byte) ++ [0xE5]).headD 0).toNat = 2
      ∧ ([2, 2, 0x17] : List Byte).length + 1 = 2 + 2 ∧ byteSum ([2, 2, 0x17] ++ [0xE5]) = 0
      ∧ byteSum ([2, 2, 0x17] ++ [0xE4]) ≠ 0 ∧ ([2, 2] : List Byte).length + 1 ≠ 2 + 2
      ∧ (withLink idle fun k => { k with input := frames 3 }).link.input.length < 4
      ∧ 4 ≤ (withLink idle fun k => { k with input := frames 4 }).link.input.length := by decide

theorem witness_TickEndsPartialFrames :
    idle.mon.power = .running ∧ (asleep idle).mon.power = .standby ∧ motionInProgress idle.seq = false
      ∧ idle.mem.transaction = none ∧ idle.link.receiver = .hunting
      ∧ (withLink idle fun k => { k with receiver := .assembling [] false false, rxMark := true }).link.rxMark = true
      ∧ (withLink idle fun k => { k with receiver := .assembling [] false false }).link.rxMark = false := by decide

theorem witness_TakeRequestServesOldestFrame :
    idle.link.input = [] ∧ canTake State.reset = false
      ∧ canTake (withLink idle fun k => { k with input := frames 4 }) = true
      ∧ (withLink idle fun k => { k with input := frames 4 }).link.input = { kind := 1, tag := 0, payload := [] } :: frames 3 := by
  decide

theorem witness_TakeRequest_decodings :
    decodeRequest 1 [] = .ok .identify ∧ decodeRequest 0x21 [] = .error .unknownKind ∧ decodeRequest 0 [] = .error .unknownKind
      ∧ decodeRequest 1 [0] = .error .badLength := ⟨rfl, rfl, rfl, rfl⟩

theorem witness_KindIsCheckedBeforeLength :
    (0 : Byte).toNat = 0 ∧ 0x20 < (0x21 : Byte).toNat ∧ lengthPermitted 1 1 = false ∧ lengthPermitted 0x20 0 = true
      ∧ lengthPermitted 1 0 = true ∧ lengthPermitted 3 31 = false ∧ lengthPermitted 3 32 = true ∧ lengthPermitted 0x17 1 = false
      ∧ lengthPermitted 0x17 2 = true ∧ lengthPermitted 0x11 32 = true := by decide

theorem witness_SentFrameLeavesTheOutputQueue :
    idle.mon.power = .running ∧ (asleep idle).mon.power = .standby ∧ (asleep idle).link.standbyTx = 0
      ∧ 0 < (asleep (withLink idle fun k => { k with standbyTx := 1 })).link.standbyTx ∧ idle.link.output = []
      ∧ (withLink idle fun k => { k with output := [noticeFrame {}] }).link.output = noticeFrame {} :: [] := by decide

theorem witness_invariants :
    LinkBounds idle ∧ QueueBounds idle ∧ PendingUpToDate idle ∧ step idle = .next idle := by
  refine ⟨⟨rfl, ?_, ?_, ?_⟩, ⟨?_, ?_⟩, rfl, rfl⟩ <;> decide

/-- Taken in `idle`, `taken_idle`: the hypothesis of the statements about a request row. The clauses' own hypotheses follow. -/
theorem witness_IdentifyAndStatusOnlyAnswer : Taken idle := taken_idle

/-- `idle` with 20 stops. -/
def twentyStops : State := withTabs ((List.range 20).map fun i => { position := 10 * i, kind := .left }) idle

theorem witness_TabRequestsChangeTheTable :
    Taken twentyStops ∧ tabKindOfByte 0 = some .left ∧ tabKindOfByte 1 = some .decimal ∧ (1560 : Half).toNat ≤ 1560
      ∧ (∃ t ∈ twentyStops.store.settings.tabs, t.position = (190 : Half).toNat)
      ∧ (∀ t ∈ twentyStops.store.settings.tabs, t.position ≠ (191 : Half).toNat)
      ∧ 20 ≤ twentyStops.store.settings.tabs.length ∧ idle.store.settings.tabs.length < 20
      ∧ stopsSorted twentyStops.store.settings.tabs = true ∧ 1 < (2 : Byte).toNat ∧ 1560 < (1561 : Half).toNat := by
  refine ⟨⟨rfl, rfl, rfl⟩, ?_⟩; decide

theorem witness_SetMarginsAppliesOrRefuses :
    Taken idle ∧ Taken (holding [cell 1 .glyph .held] idle) ∧ (1440 : Half).toNat < (1560 : Half).toNat
      ∧ (1560 : Half).toNat ≤ 1560 ∧ 120 ≤ (1560 : Half).toNat - (1440 : Half).toNat ∧ idle.store.openLine.cells = []
      ∧ (holding [cell 1 .glyph .held] idle).store.openLine.cells ≠ []
      ∧ ¬((1441 : Half).toNat < (1560 : Half).toNat ∧ (1560 : Half).toNat ≤ 1560 ∧ 120 ≤ (1560 : Half).toNat - (1441 : Half).toNat) := by
  refine ⟨⟨rfl, rfl, rfl⟩, ⟨rfl, rfl, rfl⟩, ?_⟩; decide

/-- `idle` in WORD mode with spelling on, a HELD letter cell in the OPEN line. -/
def wordMode (m : ReleaseMode) : State :=
  let s := holding [{ cell 1 .glyph .held with word := some { number := 1, generation := 0 }, mark := some .miss }] idle
  { s with
    store := { s.store with settings := { s.store.settings with releaseMode := m } }
    spell := { s.spell with enabled := true, availability := .available } }

theorem witness_SetLayoutAppliesCheckedFields_word :
    Taken (wordMode .word) ∧ Taken (wordMode .direct) ∧ wordCondition (wordMode .word) = true
      ∧ wordCondition (wordMode .direct) = false ∧ layoutInRange ⟨none, none, none, some 1, none, none, none, none⟩
      ∧ layoutInRange ⟨none, none, none, some 0, none, none, none, none⟩ := by
  refine ⟨⟨rfl, rfl, rfl⟩, ⟨rfl, rfl, rfl⟩, rfl, rfl, ?_, ?_⟩ <;> simp [layoutInRange]

theorem witness_SetLayoutAppliesCheckedFields :
    Taken idle ∧ layoutInRange ⟨some 3, some 16, some 4, some 1, some 44, some 0, some 120, some 60⟩
      ∧ layoutInRange ⟨none, none, none, none, none, none, none, none⟩
      ∧ ¬layoutInRange ⟨none, none, some 5, none, none, none, none, none⟩ := by
  refine ⟨taken_idle, ?_, ?_, ?_⟩ <;> simp [layoutInRange]

set_option maxRecDepth 20000 in
theorem witness_IndexAppendsItsFeed :
    Taken idle ∧ (1 : Byte).toNat ≤ 1 ∧ 1 ≤ (4 : Byte).toNat ∧ (4 : Byte).toNat ≤ 4 ∧ idle.store.openLine.cells = []
      ∧ idle.store.anyHeld = false ∧ idle.seq.jobs.length < 256 ∧ idle.store.earlier = []
      ∧ (behind [closed true []] idle).store.earlier = [] ++ [closed true []] ∧ 1 < (2 : Byte).toNat
      ∧ 4 < (5 : Byte).toNat ∧ (holding [cell 1 .glyph .printed] idle).store.openLine.cells ≠ []
      ∧ (behind [closed true [cell 1 .ret .held]] idle).store.anyHeld = true
      ∧ 256 ≤ (queued (List.replicate 256 (.feed true 8 none 0)) idle).seq.jobs.length := by
  refine ⟨taken_idle, ?_⟩
  decide

theorem witness_DeferredRequestsKeepTheirTag :
    Taken idle ∧ Taken (withLink idle fun k => { k with drain := some 1, save := some 2 })
      ∧ (withLink idle fun k => { k with drain := some 1, save := some 2 }).link.drain ≠ none
      ∧ (withLink idle fun k => { k with drain := some 1, save := some 2 }).link.save ≠ none ∧ idle.link.drain = none
      ∧ idle.link.save = none ∧ (∀ c ∈ idle.store.cells, c.state = .printed) ∧ idle.seq.jobs = []
      ∧ (∃ c ∈ (holding [cell 1 .glyph .held] idle).store.cells, c.state ≠ .printed)
      ∧ (queued [.feed true 8 none 0] idle).seq.jobs ≠ [] := by
  refine ⟨taken_idle, ⟨rfl, rfl, rfl⟩, ?_⟩; decide

theorem witness_KeysStopAtFirstRefusal :
    Taken idle ∧ 16 < (List.replicate 17 (⟨97, false, false, false⟩ : KeyRec)).length
      ∧ 1 ≤ [(⟨97, false, false, false⟩ : KeyRec)].length
      ∧ (List.replicate 16 (⟨97, false, false, false⟩ : KeyRec)).length ≤ 16 := by
  refine ⟨taken_idle, ?_⟩; decide

theorem witness_KeysStopAtFirstRefusal_checks :
    checkKey idle ⟨97, false, false, false⟩ = .ok .glyph
      ∧ checkKey idle ⟨127, false, false, false⟩ = .error { code := .badValue, latch := none }
      ∧ checkKey idle ⟨200, false, false, false⟩ = .error { code := .noGlyph, latch := some .noGlyph } := ⟨rfl, rfl, rfl⟩

theorem witness_EntryChecksInOrder :
    (¬(33 ≤ 127 ∧ 127 ≤ 126) ∧ ¬(160 ≤ 127 ∧ 127 ≤ 255) ∧ 127 ≠ 32 ∧ 127 ≠ 9 ∧ 127 ≠ 13 ∧ 127 ≠ 14)
      ∧ (33 ≤ 126 ∧ 126 ≤ 126) ∧ idle.mem.active.glyphWidth 126 = 12 ∧ idle.mem.active.spaceWidthOf = 12
      ∧ idle.store.openLine.alignment = .flushLeft ∧ (33 ≤ 255 ∧ 160 ≤ 255 ∧ 255 ≤ 255) ∧ (13 = 13 ∨ 13 = 14) := by decide

theorem witness_KeyEntersItsCell :
    idle.store.cells.length ≤ 384 ∧ idle.store.openLine.segment = none
      ∧ (segmented .flushLeft 1320 220).store.openLine.segment = some { stop := 220, point := 120, tab := 1, cells := [2, 3] }
      ∧ (∃ x ∈ (segmented .flushLeft 1320 220).store.openLine.cells, x.seq = 1) ∧ 1 ∉ [2, 3]
      ∧ (segmented .flushLeft 1320 220).store.settings.decimalChar = 46
      ∧ [({ position := 400, kind := .decimal } : TabStop)].find? (fun t => decide (220 < t.position))
        = some { position := 400, kind := .decimal }
      ∧ (segmented .flushLeft 1320 220).store.cells.length ≤ 384 ∧ (segmented .flushLeft 1320 130).store.openLine.cells
        = [] ++ { cell 1 .tab .held with code := 9, width := 0, position := some 120 }
          :: [{ cell 2 .glyph .held with holds := { decimal := true } }, { cell 3 .glyph .held with holds := { decimal := true } }]
      ∧ 130
        < 120 + widthIn { stop := 130, point := 120, tab := 1, cells := [2, 3] }
            (segmented .flushLeft 1320 130).store.openLine.cells := by
  decide

/-- `idle` with a word open and an apostrophe pending behind its letter. -/
def apostrophePending : State :=
  { idle with
    store :=
      { (holding
            [{ cell 1 .glyph .held with word := some { number := 1, generation := 0 } }, { cell 2 .glyph .held with code := 39 }]
            idle).store with
        nextSeq := 3, openWord := some { number := 1, generation := 0 }, pendingApostrophe := some 2 } }

theorem witness_KeyEntersItsCell_words :
    isLetterCode 97 = true ∧ apostrophePending.store.openWord = some { number := 1, generation := 0 }
      ∧ idle.store.openWord = none ∧ idle.store.pendingApostrophe = none
      ∧ apostrophePending.store.pendingApostrophe = some 2
      ∧ { apostrophePending.store with pendingApostrophe := none }.pendingApostrophe.isNone = true
      ∧ (enterCell .glyph ⟨116, false, false, false⟩ apostrophePending).store.openLine.cells.map (·.word)
        = [some { number := 1, generation := 0 }, some { number := 1, generation := 0 }, some { number := 1, generation := 0 }] := by
  decide

theorem witness_ReturnClosesTheLine :
    idle.store.openLine.segment = none ∧ (∃ x ∈ (segmented .justify 1320 220).store.openLine.cells, x.seq = 1)
      ∧ (segmented .justify 1320 220).store.cells.length ≤ 384
      ∧ 120 < 120 + widthIn { stop := 120, point := 120, tab := 1, cells := [2] } [cell 2 .glyph .held]
      ∧ (∃ x ∈ [cell 1 .glyph .printed, cell 2 .glyph .held], x.state ≠ .held)
      ∧ (freshLine { alignment := .center }).placement = none
      ∧ [cell 1 .glyph .printed, cell 2 .glyph .held] = [] ++ cell 1 .glyph .printed :: [cell 2 .glyph .held] := by decide

/-- A HELD line of one gap and a trailing space. -/
def gapLine : List Cell := [cell 1 .glyph .held, cell 2 .space .held, cell 3 .glyph .held] ++ [cell 4 .space .held]

/-- The clauses of a held line: all HELD, a body that ends with no SPACE, one gap (justified into 60 units, too wide into 600), or
spaces only. -/
theorem witness_ReturnClosesTheLine_held :
    (∀ x ∈ gapLine, x.state = .held) ∧ (∀ x ∈ [cell 4 .space .held], x.kind = .space) ∧ (cell 3 .glyph .held).kind ≠ .space
      ∧ gapsBefore gapLine 4 = 1 ∧ (∃ x ∈ gapLine, x.kind = .glyph) ∧ (∀ x ∈ gapLine, x.kind ≠ .tab)
      ∧ cellsWidth (gapLine.take 3) = 36 ∧ (60 - 36 + 1 - 1) / 1 ≤ 2 * 12 ∧ ¬(600 - 36 + 1 - 1) / 1 ≤ 2 * 12
      ∧ [cell 4 .space .held] = [] ++ [cell 4 .space .held] := by decide

/-- R42, R43, R39: that line justified between 120 and 180, its return behind the trailing space. -/
theorem test_justified_line :
    (fun l : Line => (l.cells.map (·.position), l.placement))
      (closeLine
        { freshLine { left := 120, right := 180, alignment := .justify } with
          cells := gapLine ++ [{ cell 5 .ret .held with width := 0 }] } 12).1
      = ([some 120, some 132, some 168, some 180, some 192], some [24]) := by decide

theorem witness_CorrectionIsWholeOrRefused :
    Taken (holding [cell 1 .glyph .printed, cell 2 .space .printed] idle)
      ∧ (holding [cell 1 .glyph .printed, cell 2 .space .printed] idle).store.openLine.cells ≠ []
      ∧ wordEraseCount (holding [cell 1 .glyph .printed, cell 2 .space .printed] idle).store.openLine.cells.reverse = 2
      ∧ idle.store.openLine.cells = [] ∧ (queued [.feed true 8 none 0] idle).seq.jobs.length + 2 ≤ 256
      ∧ needsPlace idle.seq { cell 1 .glyph .printed with impressions := [{ petal := 1, offset := 0, level := 3, made := true }] }
        = true := by
  refine ⟨⟨rfl, rfl, rfl⟩, ?_⟩; decide

theorem witness_RemovalDealsWithTheJob :
    (cell 1 .space .held).strikes = false ∧ (cell 1 .glyph .held).strikes = true ∧ (cell 1 .glyph .held).state = .held
      ∧ (cell 1 .glyph .printed).state = .printed ∧ (∀ i ∈ (cell 1 .glyph .printed).impressions, i.made = false)
      ∧ (cell 1 .glyph .queued).state = .queued ∧ strikeInFlight idle.seq 1 = false
      ∧ strikeInFlight { (queued [.strike (.cell 1)] idle).seq with inFlight := true } 1 = true
      ∧ (cell 1 .glyph .striking).state = .striking := by decide

/-- An empty OPEN line behind a closed line of one printed return. -/
def returned (st : CellState) : State := behind [closed true [cell 1 .ret st]] idle

theorem witness_CorrectCrossesBack :
    Taken idle ∧ idle.store.openLine.cells = [] ∧ idle.store.earlier = []
      ∧ (behind [closed false []] idle).store.earlier = [] ++ [closed false []] ∧ (closed false []).reach = false
      ∧ Taken (returned .printed) ∧ (returned .printed).store.earlier = [] ++ [closed true [cell 1 .ret .printed]]
      ∧ (closed true [cell 1 .ret .printed]).cells = [] ++ [cell 1 .ret .printed] ∧ (cell 1 .ret .printed).state = .printed
      ∧ (cell 1 .ret .held).state = .held ∧ feedInFlight idle.seq 1 = false
      ∧ feedInFlight { (queued [.feed true 8 (some 1) 0] idle).seq with inFlight := true } 1 = true
      ∧ (cell 1 .ret .queued).state ≠ .printed ∧ feedInFlight (queued [.feed true 8 (some 1) 0] idle).seq 1 = false
      ∧ feedOf 1 (.feed true 8 (some 1) 0) = true ∧ (∀ j ∈ idle.seq.jobs, feedOf 1 j.kind = false)
      ∧ (∃ c ∈ [cell 2 .glyph .printed, cell 3 .glyph .held], c.state ≠ .held)
      ∧ (freshLine { alignment := .center }).alignment ≠ .flushLeft := by
  refine ⟨taken_idle, rfl, rfl, rfl, rfl, ⟨rfl, rfl, rfl⟩, ?_⟩; decide

/-- R78, R116: a FEED in flight loses its link and a CROSS follows; R115: one that has not started is withdrawn. -/
theorem test_crossing_back_over_a_feed :
    (fun q : Sequencer => q.jobs.map (·.kind))
        (crossBack (closed true [cell 1 .ret .queued]) (cell 1 .ret .queued)
          (withSeq (queued [.feed true 8 (some 1) 3] (returned .queued)) fun q => { q with inFlight := true })).seq
        = [.feed true 8 none 3, .cross 8 120 0 0]
      ∧ (crossBack (closed true [cell 1 .ret .queued]) (cell 1 .ret .queued)
          (queued [.feed true 8 (some 1) 0] (returned .queued))).seq.jobs = [] := by decide

theorem witness_WordEraseTakesTheLastWord :
    (∀ c ∈ [cell 3 .space .printed], c.kind = .space) ∧ (cell 2 .tab .printed).kind = .tab ∧ [cell 2 .glyph .printed] ≠ []
      ∧ (∀ c ∈ [cell 2 .glyph .printed], c.kind ≠ .space ∧ c.kind ≠ .tab)
      ∧ [cell 1 .space .printed] = [] ++ [cell 1 .space .printed] := by decide

/-- `idle` with one flagged word and these user words. -/
def flaggedWith (ws : List (List Nat)) : State :=
  { idle with
    spell := { idle.spell with flagged := [{ word := { number := 1, generation := 0 }, letters := [20, 8, 5] }], userList := ws } }

theorem witness_SpellAcceptAndAdd :
    Taken idle ∧ idle.spell.flagged = [] ∧ Taken (flaggedWith [[20, 8, 5]])
      ∧ (flaggedWith []).spell.flagged = { word := { number := 1, generation := 0 }, letters := [20, 8, 5] } :: []
      ∧ [20, 8, 5] ∈ (flaggedWith [[20, 8, 5]]).spell.userList ∧ [20, 8, 5] ∉ (flaggedWith []).spell.userList
      ∧ (flaggedWith []).spell.userList.length < 40
      ∧ 40 ≤ (flaggedWith (List.replicate 40 [1, 1])).spell.userList.length
      ∧ [20, 8, 5] ∉ (flaggedWith (List.replicate 40 [1, 1])).spell.userList ∧ wordsSorted [[1, 1], [20, 8]] = true := by
  refine ⟨taken_idle, rfl, ⟨rfl, rfl, rfl⟩, ?_⟩; decide

theorem witness_UserWordsDeletedAndRead :
    Taken idle ∧ ([97] : List Byte).length < 2 ∧ 24 < (List.replicate 25 (97 : Byte)).length
      ∧ (∃ c ∈ ([97, 48] : List Byte), isLetterCode c.toNat = false ∧ c.toNat ≠ 39)
      ∧ (∀ c ∈ ([97, 39] : List Byte), isLetterCode c.toNat = true ∨ c.toNat = 39)
      ∧ ([97, 39] : List Byte).map (fun c => foldCode c.toNat) = [1, 27] ∧ [1, 27] ∉ idle.spell.userList
      ∧ [1, 27] ∈ (flaggedWith [[1, 27]]).spell.userList ∧ (39 : Byte).toNat ≤ 39 ∧ 39 < (40 : Byte).toNat
      ∧ (flaggedWith [[1, 27]]).spell.userList[(0 : Byte).toNat]? = some [1, 27]
      ∧ (flaggedWith [[1, 27]]).spell.userList.length ≤ (1 : Byte).toNat := by
  refine ⟨taken_idle, ?_⟩; decide

/-- A header that lists table 3. -/
def listing : RomHeader := { revision := 1, directory := 1024, wheels := [(3, 700)] }

theorem witness_WheelAssignFitsTheTable :
    Taken (waiting none idle) ∧ idle.seq.mech ≠ .wheelWait ∧ (waiting none idle).seq.mech = .wheelWait
      ∧ (waiting none idle).mem.wait = some { reason := .mismatch, hub := 7, decision := none, table := builtInTable } ∧ 31 < (32 : Byte).toNat
      ∧ (31 : Byte).toNat ≤ 31 ∧ romLists (some listing) (31 : Byte).toNat = false ∧ (31 : Byte) ≠ 0
      ∧ romLists (some listing) (3 : Byte).toNat = true ∧ (waiting none idle).mem.active.id = (0 : Byte).toNat
      ∧ (waiting none idle).mem.active.id ≠ (3 : Byte).toNat ∧ psWheel.id ≠ (0 : Byte).toNat
      ∧ romLists none (0 : Byte).toNat = false ∧ (waiting none idle).mem.loadBusy = false
      ∧ (onBus (.load { id := 3, assignHub := none, homing := true }) false (waiting none idle)).mem.loadBusy = true := by
  refine ⟨⟨rfl, rfl, rfl⟩, ?_⟩; decide

theorem witness_DiscardRemovesUnprintedText :
    Taken (waiting none idle) ∧ (waiting none idle).mem.wait = some { reason := .mismatch, hub := 7, decision := none, table := builtInTable }
      ∧ (waiting (some { id := 3, assignHub := none, homing := false }) idle).mem.wait
        = some { reason := .mismatch, hub := 7, decision := some { id := 3, assignHub := none, homing := false }, table := builtInTable }
      ∧ (discardText (holding [cell 1 .glyph .printed, cell 2 .glyph .held] idle)).2 = (1, 0)
      ∧ (holding [cell 1 .glyph .printed, cell 2 .glyph .held] idle).store.cells = [cell 1 .glyph .printed] ++ [cell 2 .glyph .held]
      ∧ (∀ c ∈ [cell 1 .glyph .printed], c.state = .printed) ∧ (cell 2 .glyph .held).state ≠ .printed
      ∧ [cell 2 .glyph .held] = [cell 2 .glyph .held].filter (fun c => !c.isReturn)
      ∧ idle.store.openLine.segment = none := by
  refine ⟨⟨rfl, rfl, rfl⟩, ?_⟩; decide

/-- R149: behind the cut a PRINTED space goes and the return stays; its STRIKE and the detached one leave, the fixed empty LIFT too. -/
theorem test_discard :
    (fun r : State × Nat × Nat => (r.1.store.cells.map (·.seq), r.1.seq.jobs.map (·.kind), r.2))
      (discardText
        (queued [.strike (.detached 120 []), .strike (.cell 2), .lift 120 [] true 0, .feed true 8 (some 4) 0]
          (behind [closed true [cell 1 .space .printed, cell 2 .glyph .queued, cell 3 .space .printed, cell 4 .ret .queued]] idle)))
      = ([1, 4], [.feed true 8 (some 4) 0], 2, 3) := by decide

theorem witness_RecoverOnlyInFault :
    Taken (withSeq idle fun q => { q with mech := .fault }) ∧ (withSeq idle fun q => { q with mech := .fault }).seq.mech = .fault
      ∧ idle.mon.levels.cover = true ∧ (withSensorLevel idle.mon.levels false .cover).cover = false ∧ idle.seq.mech ≠ .fault := by
  refine ⟨⟨rfl, rfl, rfl⟩, ?_⟩; decide

theorem witness_OverlayShowsAndEnds :
    Taken idle ∧ 25 < (26 : Byte).toNat ∧ 40 < (41 : Byte).toNat ∧ (∃ c ∈ ([31] : List Byte), c.toNat < 32)
      ∧ 40 < (40 : Byte).toNat + ([65, 66] : List Byte).length - 1 ∧ (25 : Byte).toNat ≤ 25
      ∧ (40 : Byte).toNat + ([65] : List Byte).length ≤ 41 ∧ idle.disp.overlay = none
      ∧ ({ idle with disp := { idle.disp with overlay := some [65], overlayTimer := some 5 } } : State).disp.overlay = some [65]
      ∧ ({ idle with disp := { idle.disp with overlay := some [65], overlayTimer := some 5 } } : State).disp.overlayTimer ≠ none
      ∧ idle.disp.overlayTimer = none ∧ idle.disp.state = .on ∧ State.reset.disp.state ≠ .on
      ∧ (holding [cell 1 .glyph .held] idle).store.openLine.cells[0]? = some (cell 1 .glyph .held)
      ∧ 0 + 1 = (holding [cell 1 .glyph .held] idle).store.openLine.cells.length
      ∧ (holding [cell 1 .glyph .held] idle).store.openLine.cells.length < 0 + 31 := by
  refine ⟨taken_idle, ?_⟩; decide

/-- R160, R161: a HELD glyph underbarred, the cursor behind it, and the status field: column 2, FLUSH_LEFT, DIRECT, spelling
on, READY, below 112. -/
theorem test_display_frame :
    (fun f : List DisplayCell => (f.take 3, (f.drop 32).map (·.code)))
      (refreshDisplay (holding [{ cell 1 .glyph .held with position := some 120 }] idle)).disp.frame
      = ([{ code := 97, underbar := true }, { code := 129, underbar := false }, { code := 32, underbar := false }]
        , [32, 32, 50, 76, 68, 83, 32, 32]) := by decide

/-- `idle` with HOMED latched and masked. -/
def homedMasked : State := setLatch .homed idle

theorem witness_EventRequestsReadClearAndMask :
    Taken homedMasked ∧ PendingUpToDate homedMasked ∧ 4 < (5 : Byte).toNat ∧ groupOfByte 4 = some .sense
      ∧ groupOfByte 0 = some .mech ∧ homedMasked.mon.pendingSet.gained
          (pendingOf homedMasked.mon.latches (homedMasked.mon.masks.set 0 .mech)) = true
      ∧ homedMasked.mon.pendingSet.gained (pendingOf homedMasked.mon.latches (homedMasked.mon.masks.set 0 .sense)) = false
      ∧ 2 ≤ freePlaces homedMasked.link
      ∧ freePlaces { homedMasked.link with output := List.replicate 7 (noticeFrame {}) } ≤ 1 := by
  refine ⟨⟨rfl, rfl, rfl⟩, rfl, ?_⟩; decide

theorem witness_SensorConfigAndLamp :
    Taken idle ∧ idle.mon.lamps.length = 4 ∧ 5 < (6 : Byte).toNat ∧ 2 < (3 : Byte).toNat ∧ 1 < (2 : Byte).toNat
      ∧ sensorOfByte 5 = some .wheelIndex ∧ edgeOfNat (2 : Byte).toNat = some .both ∧ (1 : Byte).toNat ≤ 1
      ∧ 3 < (4 : Byte).toNat ∧ (∃ a ∈ some (5 : Byte), 4 < a.toNat) ∧ idle.mon.lamps[(3 : Byte).toNat]? = some {}
      ∧ (∀ b ∈ some (4 : Byte), b.toNat ≤ 4) := by
  refine ⟨taken_idle, ?_⟩; decide

theorem witness_BeeperPlaysItsPattern :
    Taken idle ∧ 3 < (4 : Byte).toNat ∧ idle.mon.beeperEnable = true ∧ idle.mon.beeper = none
      ∧ ({ idle.mon with beeperEnable := false } : Monitor).beeperEnable = false
      ∧ (beep .short idle).mon.beeper = some { pattern := .short, tone := true, tonesLeft := 0, timer := 50 }
      ∧ (beep .triple idle).mon.beeper = some { pattern := .triple, tone := true, tonesLeft := 2, timer := 150 } := by
  refine ⟨taken_idle, ?_⟩; decide

theorem witness_HeaderReadEndsInTheLink :
    idle.mem.busJob ≠ some .header ∧ (onBus .header false idle).mem.busJob = some .header
      ∧ parseHeader [] = none ∧ idle.mem.loadWaiting = none
      ∧ (withMem idle fun m => { m with loadWaiting := some { id := 3, assignHub := none, homing := true } }).mem.loadWaiting
        = some { id := 3, assignHub := none, homing := true } := by decide

/-- A load of table 3 by a homing. -/
def load3 : LoadRequest := { id := 3, assignHub := none, homing := true }

theorem witness_TableLoadReplacesOrKeeps :
    (onBus (.load load3) false idle).mem.busJob = some (.load load3)
      ∧ (withSeq idle fun q => { q with mech := .homing, homingWait := .ownLoad 3 }).seq.homingWait = .ownLoad 3
      ∧ (waiting (some load3) idle).mem.wait = some { reason := .mismatch, hub := 7, decision := some load3, table := builtInTable }
      ∧ (waiting (some load3) idle).seq.mech = .wheelWait ∧ idle.seq.mech ≠ .homing ∧ idle.seq.mech ≠ .wheelWait
      ∧ parseTable 3 [] = none := by decide

/-- The bytes of a valid P12 table of ID 3: every petal carries code 0 at level 1. -/
def table3 : List Byte :=
  [3, 1, 0, 95] ++ (List.range 100).flatMap (fun _ => [0, 0, 1]) ++ List.replicate 49 0

set_option maxRecDepth 8000 in
theorem witness_TableLoadReplacesOrKeeps_valid : table3.length = 353 ∧ (parseTable 3 table3).isSome = true := by decide

/-- A lookup at its directory read, or at the bucket 1024. -/
def lookupAt (bucket : Option Nat) (stale : Bool) : Lookup := { letters := [20, 8, 5], bucket := bucket, stale := stale }

/-- The check request of the lookup. -/
def reading : CheckRequest := { word := { number := 1, generation := 0 }, letters := [20, 8, 5], reading := true }

theorem witness_LookupReadsEnd :
    (onBus .dictionary false idle).mem.busJob = some .dictionary ∧ (lookupAt none true).stale = true
      ∧ (lookupAt none false).bucket = none ∧ (lookupAt (some 1024) false).bucket ≠ none ∧ addressAt [0, 0, 0] 0 = 0
      ∧ addressAt [0, 4, 0] 0 ≠ 0 ∧ scanBucket (lookupAt (some 1024) false).letters [3, 20, 8, 5] 257 0 = some true
      ∧ scanBucket (lookupAt (some 1024) false).letters [0] 257 0 = some false
      ∧ [reading].find? (·.reading) = some reading ∧ reading.letters ∈ (flaggedWith [[20, 8, 5]]).spell.userList
      ∧ reading.letters ∉ idle.spell.userList := by decide

set_option maxRecDepth 8000 in
theorem witness_RecordReadsRestoreOrDefault :
    (onBus .nvRead false State.reset).mem.busJob = some .nvRead
      ∧ (onBus .nvRead false State.reset).mem.nv = .readSettings :: [.readList]
      ∧ (withMem (onBus .nvRead false State.reset) fun m => { m with nv := [.readList] }).mem.nv = .readList :: []
      ∧ parseSettings (buildSettings SettingsRecord.defaults) = some SettingsRecord.defaults
      ∧ (buildSettings SettingsRecord.defaults).length = 64 ∧ parseSettings (List.replicate 64 0) = none
      ∧ parseList [1, 255] = none ∧ parseList (List.replicate 30 0) = some [] := by decide

theorem witness_SettingsRecordRoundTrip :
    (fun r : SettingsRecord =>
      r.line.left < r.line.right ∧ r.line.right ≤ 1560 ∧ 120 ≤ r.line.right - r.line.left
      ∧ (r.line.spacing = 8 ∨ r.line.spacing = 12 ∨ r.line.spacing = 16)
      ∧ (r.line.decimalChar = 46 ∨ r.line.decimalChar = 44) ∧ r.line.bellWidth ≤ 120 ∧ r.line.tabs.length ≤ 20
      ∧ (∀ t ∈ r.line.tabs, t.position ≤ 1560) ∧ stopsSorted r.line.tabs = true ∧ 1 ≤ r.impression ∧ r.impression ≤ 4
      ∧ r.idleMinutes ≤ 60 ∧ r.lamps.length = 4)
      { SettingsRecord.defaults with
        line := { left := 1440, right := 1560, spacing := 16, decimalChar := 44, bellWidth := 120, tabs := [⟨0, .left⟩, ⟨1560, .decimal⟩] }
        impression := 4, idleMinutes := 60 } := by decide

/-- A save of pages 0 and 3, or of page 3 alone. -/
def saving (ps : List Nat) (readback retried : Bool) : State :=
  withLink
    (withMem idle fun m =>
      { m with
        nv := [.saveSettings (some { record := List.replicate 64 7, pages := ps, readback := readback, retried := retried })] })
    fun k => { k with save := some 9 }

theorem witness_PagesAreWrittenAndVerified :
    (saving [0, 3] false false).link.save = some 9 ∧ (onBus .nvWrite false (saving [3] false false)).mem.busJob = some .nvWrite
      ∧ (onBus .nvReadback false (saving [3] true true)).mem.busJob = some .nvReadback
      ∧ List.replicate 16 (7 : Byte) = pageOf (List.replicate 64 7) 3
      ∧ List.replicate 16 (8 : Byte) ≠ pageOf (List.replicate 64 7) 3 ∧ [3] ≠ ([] : List Nat) := by decide

theorem witness_ArbiterGrantsInOrder :
    (onBus .header false idle).mem.transaction ≠ none ∧ idle.mem.transaction = none ∧ State.reset.mem.headerWaiting = true
      ∧ idle.mem.headerWaiting = false ∧ idle.mem.loadWaiting = none ∧ romLists (some listing) load3.id = true
      ∧ (withMem idle fun m => { m with dictWaiting := true, grantCounter := 3 }).mem.grantCounter ≠ 4
      ∧ (withMem idle fun m => { m with dictWaiting := true, grantCounter := 4 }).mem.grantCounter = 4
      ∧ idle.mem.dictWaiting = false ∧ idle.mem.nv = [] ∧ State.reset.mem.nv = .readSettings :: [.readList] := by decide

/-- `idle` with the carriage parking. -/
def parkingState (mark : Bool) : State := withSeq idle fun q => { q with parking := true, carTarget := some 121, mark := mark }

theorem witness_TickMarksAndStalls :
    (parkingState true).mon.power = .running ∧ motionInProgress (parkingState true).seq = true
      ∧ (parkingState true).seq.mark = true ∧ (parkingState false).seq.mark = false ∧ motionInProgress idle.seq = false
      ∧ (parkingState true).link.receiver = .hunting ∧ (parkingState true).mem.transaction = none
      ∧ idle.mon.beeperEnable = true := by decide

theorem witness_TickAbandonsSilentTransactions :
    (onBus .header true idle).mon.power = .running ∧ (onBus .header true idle).link.receiver = .hunting
      ∧ motionInProgress (onBus .header true idle).seq = false
      ∧ (onBus .header true idle).mem.transaction = some { job := .header, mark := true }
      ∧ (onBus (.load load3) false idle).mem.transaction = some { job := .load load3, mark := false } := by decide

theorem witness_EncoderEdgeCountsProgress :
    (homingAt ⟨.rightward 58, .seeking 798⟩ idle).seq.homing = some ⟨.rightward 58, .seeking 798⟩ ∧ 58 + 1 < 60 ∧ 60 ≤ 59 + 1
      ∧ 1698 + 1 < 1700 ∧ 1700 ≤ 1699 + 1 ∧ 798 + 1 < 800 ∧ 800 ≤ 799 + 1 ∧ 399 < 400 ∧ idle.seq.homing = none
      ∧ (parkingState false).seq.carriage = some 120 ∧ (parkingState false).seq.carTarget = some 121
      ∧ (parkingState false).seq.parking = true ∧ (parkingState false).seq.phase ≠ .crossing
      ∧ (withSeq idle fun q => { q with phase := .moving }).seq.phase = .moving
      ∧ 1 < (({ target := 3, clockwise := true, stepsLeft := 2 } : WheelMove)).stepsLeft ∧ idle.seq.wheelMove = none
      ∧ idle.seq.phase ≠ .moving ∧ idle.seq.parking = false := by decide

theorem witness_SettledMotionStandsAtItsTarget :
    (withSeq idle fun q => { q with phase := .moving }).seq.phase = .moving
      ∧ (withSeq (queued [.cross 8 130 8 0] idle) fun q => { q with phase := .crossing }).seq.jobs
        = { kind := .cross 8 130 8 0, marked := false } :: []
      ∧ idle.seq.phase ≠ .moving ∧ idle.seq.phase ≠ .crossing ∧ (parkingState false).seq.parking = true
      ∧ idle.seq.parking = false := by decide

theorem witness_HammerAndLiftersFinish :
    (withSeq idle fun q => { q with phase := .pulse }).seq.phase = .pulse ∧ idle.seq.phase ≠ .pulse
      ∧ (withSeq idle fun q => { q with phase := .retract, hammer := .returning }).seq.hammer = .returning
      ∧ idle.seq.phase ≠ .retract ∧ idle.seq.ribbonLifter = .down ∧ idle.seq.tapeLifter = .down
      ∧ (withSeq idle fun q => { q with ribbonLifter := .rising, tapeLifter := .lowering }).seq.ribbonLifter = .rising
      ∧ (withSeq idle fun q => { q with ribbonLifter := .lowering, tapeLifter := .rising }).seq.tapeLifter = .rising := by decide

theorem witness_PlatenStepCountsAndTurns :
    (withSeq idle fun q => { q with paperFeed := some 94 }).seq.paperFeed = some 94 ∧ 94 + 1 < 96 ∧ 96 ≤ 95 + 1
      ∧ idle.mon.levels.paper = true ∧ (withSensorLevel idle.mon.levels false .paper).paper = false
      ∧ idle.seq.paperFeed = none ∧ idle.seq.parking = false
      ∧ (queued [.feed true 8 none 7] idle).seq.jobs = { kind := .feed true 8 none 7, marked := false } :: [] ∧ 7 < 8
      ∧ (queued [.cross 8 130 7 0] idle).seq.jobs = { kind := .cross 8 130 7 0, marked := false } :: []
      ∧ idle.seq.phase ≠ .feeding ∧ idle.seq.phase ≠ .crossing := by decide

theorem witness_WheelHomingEndsWithTheHubId :
    (homingAt ⟨.ended, .reading 400⟩ idle).seq.homing = some ⟨.ended, .reading 400⟩
      ∧ (Homing.mk .ended (.reading 400)).carriage = .ended ∧ (Homing.mk (.leftward 3) (.seeking 0)).carriage ≠ .ended
      ∧ (Homing.mk .ended (.ended 4)).wheel = .ended 4 ∧ idle.seq.homing = none ∧ State.reset.mem.headerBusy = true
      ∧ State.reset.mem.provisional = true ∧ idle.mem.headerBusy = false ∧ tableSource idle.mem 0 = .builtIn
      ∧ idle.mem.active = builtInTable ∧ tableSource idle.mem 7 = .absent
      ∧ tableSource { idle.mem with header := some listing } 3 = .rom ∧ idle.seq.jobs = [] ∧ idle.store.anyHeld = false
      ∧ (queued [.feed true 8 none 0] idle).seq.jobs ≠ [] ∧ ({ idle.mem with provisional := false } : MemoryLink).boundId = 0
      ∧ psWheel ≠ builtInTable ∧ idle.mem.loadBusy = false ∧ (onBus (.load load3) false idle).mem.loadBusy = true := by
  decide

theorem witness_SensorChangesActAndLatch :
    sensorLevel idle.mon.levels .cover = true ∧ sensorLevel idle.mon.levels .cover ≠ false ∧ idle.mon.power = .running
      ∧ (asleep idle).mon.power = .standby ∧ EdgeSelect.rise.selects true = true ∧ EdgeSelect.rise.selects false = false
      ∧ ((idle.mon.config.set { edge := .rise, wake := true } .cover).get .cover).wake = true
      ∧ (idle.mon.config.get .cover).wake = false ∧ idle.seq.mech = .ready ∧ idle.seq.inFlight = false
      ∧ idle.seq.paperFeed = none ∧ idle.seq.suspend.paper = false
      ∧ (withSeq idle fun q => { q with mech := .interlocked, suspend := { paper := true } }).seq.suspend.paper = true := by decide

/-- The clauses on motion: a STRIKE in flight or paused, a closed line before, a homing at each of its points. -/
theorem witness_SensorChangesActAndLatch_motion :
    (withSeq (queued [.strike (.cell 1)] idle) fun q => { q with inFlight := true, phase := .pulse }).seq.jobs
        = { kind := .strike (.cell 1), marked := false } :: []
      ∧ (withSeq idle fun q => { q with inFlight := true, phase := .pulse }).seq.phase ≠ .paused
      ∧ (withSeq idle fun q => { q with inFlight := true, phase := .paused }).seq.phase = .paused
      ∧ (behind [closed true []] idle).store.earlier = [] ++ [closed true []] ∧ idle.store.earlier = []
      ∧ (queued [.strike (.cell 1)] idle).seq.jobs ≠ [] ∧ (withSensorLevel idle.mon.levels false .paper).paper = false
      ∧ idle.mon.levels.paper = true ∧ idle.seq.homing = none
      ∧ (homingAt ⟨.leftward 5, .seeking 7⟩ idle).seq.homing = some ⟨.leftward 5, .seeking 7⟩
      ∧ (∀ k, (Homing.mk (.leftward 5) (.seeking 7)).wheel ≠ .ended k) ∧ (Homing.mk (.leftward 5) (.ended 3)).wheel = .ended 3
      ∧ (Homing.mk (.rightward 5) (.reading 3)).carriage = .rightward 5
      ∧ (Homing.mk (.rightward 5) (.reading 3)).wheel = .reading 3 := by
  refine ⟨rfl, by decide, rfl, rfl, rfl, by decide, rfl, rfl, rfl, rfl, fun k h => ?_, rfl, rfl, rfl⟩
  cases h

/-- R89, R91: the cover opened during a STRIKE that has made no impression stops the motion and returns the cell to QUEUED. -/
theorem test_cover_stops_a_strike :
    (fun s : State => (s.seq.mech, s.seq.phase, s.seq.inFlight, s.seq.carriage, s.store.cells.map (·.state)))
      (after (exec (.sensorLevelChange .cover false)
        (withSeq (queued [.strike (.cell 1)] (holding [cell 1 .glyph .striking] idle)) fun q =>
          { q with mech := .busy, inFlight := true, phase := .moving })))
      = (.interlocked, .rest, true, none, [.queued]) := by decide

theorem witness_IdleCountdownEntersStandby :
    idle.mon.idle = none ∧ ({ idle.mon with idle := some 2 } : Monitor).idle = some 2 ∧ 2 ≤ 2
      ∧ ({ idle.mon with idle := some 1 } : Monitor).idle = some 1 ∧ 1 ≤ 1 ∧ idle.disp.sending = none := by decide

theorem witness_DisplayTimersAndSends :
    idle.disp.state = .on ∧ State.reset.disp.state ≠ .on ∧ State.reset.disp.state ≠ .off ∧ idle.disp.sending = none
      ∧ idle.disp.offOwed = false ∧ idle.disp.dirty = true ∧ idle.disp.gap = true
      ∧ ({ idle.disp with state := .off, offOwed := true } : Display).offOwed = true
      ∧ ({ idle.disp with sending := some [] } : Display).sending ≠ none := by decide

theorem witness_WarmResetEmptiesThePart : Taken (withLink idle fun k => { k with drain := some 3 }) := ⟨rfl, rfl, rfl⟩

theorem witness_WarmResetEmptiesThePart_lookup :
    idle.spell.lookup = none ∧ ({ idle with spell := { idle.spell with lookup := some (lookupAt none true) } } : State).spell.lookup
        = some (lookupAt none true)
      ∧ (lookupAt none true).stale = true ∧ (lookupAt none false).stale = false ∧ idle.mem.dictWaiting = false
      ∧ (withMem idle fun m => { m with dictWaiting := true }).mem.dictWaiting = true := by decide

theorem witness_PowerOnResetStartsAfresh :
    idle.mon.levels.cover = true ∧ (withSensorLevel idle.mon.levels false .cover).cover = false := by decide

theorem witness_WheelTurnAndHammerPulse : 99 < 100 ∧ 0 < 100 ∧ 99 ≠ 0 ∧ 10 + 4 * 7 + 6 * (4 - 1) ≤ 63 := by decide

theorem witness_ReleasePassKeepsTheOrder :
    releasedFirst (holding [cell 1 .glyph .queued, cell 2 .glyph .held] idle).store.cells = true ∧ idle.seq.jobs.length ≤ 256
      ∧ ((releasePass (holding [{ cell 2 .glyph .held with holds := { word := true } }] idle)).store.cells.find?
          fun c => c.state == .held).isSome = true
      ∧ (cell 2 .glyph .held).holds = { word := false, line := false, decimal := false }
      ∧ (holding [cell 2 .glyph .held] idle).store.cells[0]? = some (cell 2 .glyph .held)
      ∧ ((releasePass (holding [cell 2 .glyph .held] idle)).store.cells[0]?).map (·.state) = some .queued := by decide

/-- The clauses on the impression list: a code on a petal, a composite, a code on neither; underscores one and many, and with bold 8 or
more impressions. -/
theorem witness_ReleasePassKeepsTheOrder_impressions :
    psWheel.petalOf 101 = some (40, { code := 101, width := 9, level := 3 }) ∧ psWheel.petalOf 234 = none
      ∧ psWheel.compositionOf 234 = some { composite := 234, base := 101, accent := 94 } ∧ psWheel.compositionOf 65 = none
      ∧ psWheel.petalOf 65 = none ∧ (cell 1 .space .held).kind ≠ .glyph ∧ ((psWheel.petalOf psWheel.underscore).map (·.2.width)).getD 0 = 6
      ∧ 6 ≤ 6 ∧ ¬(9 ≤ 6) ∧ 2 * (2 + 2) ≤ 8 ∧ 8 < 2 * (2 + 3) := by decide

theorem witness_MachineEventsKeepTextAndSettings : exec .stall idle = .next idle := rfl

/-! ### Witnesses of the clauses on functions -/

/-- `idle` with a DRAIN outstanding, one cell with a drain mark and one job with or without one. -/
def draining (st : CellState) (marked : Bool) : State :=
  withLink
    (withSeq (holding [{ cell 1 .glyph st with drainMark := true }] idle) fun q =>
      { q with jobs := [{ kind := .feed true 8 none 0, marked := marked }] })
    fun k => { k with drain := some 3 }

theorem witness_DeferredRequestsKeepTheirTag_judgement :
    idle.link.drain = none ∧ (draining .printed false).link.drain = some 3
      ∧ (∃ c ∈ (draining .queued false).store.cells, c.drainMark = true ∧ c.state ≠ .printed)
      ∧ (∃ j ∈ (draining .printed true).seq.jobs, j.marked = true)
      ∧ (∀ c ∈ (draining .printed false).store.cells, c.drainMark = true → c.state = .printed)
      ∧ (∀ j ∈ (draining .printed false).seq.jobs, j.marked = false) := by decide

set_option maxRecDepth 20000 in
/-- R59 at its limits: 111 and 112 unprinted cells, 1 and none. -/
theorem witness_DeferredRequestsKeepTheirTag_typeAhead :
    (111 < 112 ∧ 112 ≤ (holding (List.replicate 112 (cell 1 .glyph .held)) idle).store.unprinted)
      ∧ (holding (List.replicate 111 (cell 1 .glyph .held)) idle).store.unprinted < 112
      ∧ (0 < 1 ∧ idle.store.unprinted = 0) ∧ (holding [cell 1 .glyph .held] idle).store.unprinted ≠ 0 := by decide

/-- The word of the witnesses on words. -/
def word1 : WordRef := { number := 1, generation := 0 }

/-- A letter cell of that word. -/
def letterCell (n : Nat) : Cell := { cell n .glyph .held with word := some word1 }

/-- `idle` with these cells, `word1` open or not, an apostrophe pending or not. -/
def typed (cs : List Cell) (isOpen : Bool) (pendingApostrophe : Option Nat) : State :=
  { idle with
    store :=
      { (holding cs idle).store with
        openWord := if isOpen then some word1 else none, pendingApostrophe := pendingApostrophe } }

theorem witness_KeyEntersItsCell_handOff :
    (cell 1 .space .held).kind ≠ .glyph ∧ isLetterCode 48 = false ∧ isLetterCode 39 = false ∧ (48 : Nat) ≠ 39
      ∧ idle.store.openWord = none ∧ idle.store.pendingApostrophe = none
      ∧ (typed [letterCell 1, { cell 2 .glyph .held with code := 39 }] true (some 2)).store.pendingApostrophe ≠ none
      ∧ (typed [cell 1 .space .held, letterCell 2] true none).store.openWord = some word1
      ∧ (typed [cell 1 .space .held, letterCell 2] true none).store.openLine.cells = [cell 1 .space .held] ++ letterCell 2 :: []
      ∧ (letterCell 2).word = some word1 ∧ (∀ c ∈ [cell 1 .space .held], c.word ≠ some word1) := by decide

/-- The rows of Table 5-3: the pending apostrophe, a letter cell of the open word with or without another, the first cell of a line, a
cell behind a word, behind a word and an apostrophe, and behind neither. -/
theorem witness_RemovalDealsWithTheJob_word :
    ((typed ([letterCell 1] ++ [{ cell 2 .glyph .held with code := 39 }]) true (some 2)).store.pendingApostrophe = some 2)
      ∧ (typed ([letterCell 1] ++ [letterCell 2]) true none).store.openWord = some word1
      ∧ (typed ([letterCell 1] ++ [letterCell 2]) true none).store.openLine.cells = [letterCell 1] ++ [letterCell 2]
      ∧ (∃ c ∈ [letterCell 1], c.word = some word1) ∧ (∀ c ∈ [cell 1 .space .held], c.word ≠ some word1)
      ∧ (cell 2 .space .held).word = none ∧ (typed [letterCell 1, letterCell 2] false none).store.openWord ≠ (letterCell 2).word
      ∧ (typed ([] ++ [cell 1 .space .held]) false none).store.openLine.cells = [] ++ [cell 1 .space .held]
      ∧ [cell 9 .space .held, letterCell 1] = [cell 9 .space .held] ++ [letterCell 1]
      ∧ [letterCell 1, { cell 2 .glyph .held with code := 39 }] = [] ++ [letterCell 1, { cell 2 .glyph .held with code := 39 }]
      ∧ ({ cell 2 .glyph .held with code := 39 } : Cell).word = none ∧ (cell 2 .glyph .held).code ≠ 39
      ∧ ([] : List Cell) ++ [{ cell 2 .glyph .held with code := 39 }] = [{ cell 2 .glyph .held with code := 39 }]
      ∧ [cell 1 .space .held].getLast? = some (cell 1 .space .held) ∧ (cell 1 .space .held).word = none := by decide

/-- A reopened word whose generation wraps, with and without the WORD condition, waiting in the queue as the one that is read. -/
theorem witness_RemovalDealsWithTheJob_reopen :
    (255 + 1) % 256 = 0 ∧ wordCondition (wordMode .word) = true ∧ wordCondition (wordMode .direct) = false
      ∧ ((wordMode .word).store.settings.releaseMode == .word && (wordMode .word).spell.enabled
          && (wordMode .word).spell.availability != .unavailable) = true
      ∧ (∃ q ∈ [({ word := word1, letters := [20, 8, 5], reading := true } : CheckRequest)],
          q.word.number = word1.number ∧ q.reading = true) := by decide

theorem witness_RemovalDealsWithTheJob_segment :
    idle.store.openLine.segment = none
      ∧ (segmented .flushLeft 1320 220).store.openLine.segment = some { stop := 220, point := 120, tab := 1, cells := [2, 3] }
      ∧ (segmented .flushLeft 1320 220).store.openLine.cells
        = (segmented .flushLeft 1320 220).store.openLine.cells.take 2 ++ [{ cell 3 .glyph .held with holds := { decimal := true } }]
      ∧ 1 ≠ (cell 3 .glyph .held).seq ∧ 1 = (cell 1 .tab .held).seq := by decide

theorem witness_DiscardRemovesUnprintedText_fitting :
    (waiting none idle).mem.wait = some { reason := .mismatch, hub := 7, decision := none, table := builtInTable } ∧ romLists (some listing) 3 = true
      ∧ romLists (some listing) 7 = false ∧ 7 ≠ 0 ∧ romLists none 0 = false ∧ (waiting none idle).mem.active = builtInTable
      ∧ (withMem idle fun m => { m with active := psWheel }).mem.active ≠ builtInTable ∧ (waiting none idle).mem.loadBusy = false
      ∧ (onBus (.load { id := 3, assignHub := none, homing := true }) false (waiting none idle)).mem.loadBusy = true := by decide

/-- The four automatic functions on the four lines at the end of an event, and a HOST line. -/
theorem witness_SensorConfigAndLamp_lines :
    (eventEnd 0
        { idle with
          mon :=
            { idle.mon with
              lamps := [.fault, .flaggedWord, .typeAheadHigh, .standby].map fun f => { assignment := f, level := true } } }).mon.lamps
      = ([.fault, .flaggedWord, .typeAheadHigh, .standby] : List LampFunction).map (fun f => { assignment := f, level := false })
      ∧ ({ assignment := .host, level := true } : Lamp).assignment = .host := by decide

/-- A header with this directory address and this wheel ID in its last entry. -/
def headerBytes (directory : List Byte) (wheel : Byte) : List Byte :=
  [0x4C, 0x4A, 0x44, 0x31, 1] ++ directory ++ List.replicate 92 0 ++ [wheel, 0, 0, 0]
    ++ (List.range 96).map fun n => BitVec.ofNat 8 (baseLetter (160 + n))

set_option maxRecDepth 8000 in
/-- R151 at its limits: directory offset 0xFFD000 and one more, wheel ID 31 and 32. -/
theorem witness_HeaderReadEndsInTheLink_header :
    (parseHeader (headerBytes [0, 0xD0, 0xFF] 31)).isSome = true ∧ parseHeader (headerBytes [1, 0xD0, 0xFF] 31) = none
      ∧ parseHeader (headerBytes [0, 4, 0] 32) = none ∧ (headerBytes [0, 4, 0] 0).length = 200 := by decide

theorem witness_HeaderReadEndsInTheLink_availability :
    idle.spell.availability ≠ .unavailable
      ∧ (spellingLost idle).spell.availability = .unavailable ∧ wordCondition (wordMode .word) = true
      ∧ wordCondition (wordMode .direct) = false := by decide

/-- R146: a made impression, one whose code is on the new wheel, the underscore, one whose code is not. -/
theorem witness_TableLoadReplacesOrKeeps_revision :
    ({ petal := 12, offset := 0, level := 5, made := true } : Impression).made = true
      ∧ ({ petal := 12, offset := 0, level := 5, made := false } : Impression).made = false
      ∧ psWheel.petals[12]? = some { code := 85, width := 14, level := 5 } ∧ 85 ≠ psWheel.underscore
      ∧ (builtInTable.petalOf 85).isSome = true ∧ psWheel.petals[71]? = some { code := 95, width := 6, level := 3 }
      ∧ 95 = psWheel.underscore ∧ (psWheel.petalOf 65) = none
      ∧ (builtInTable.petalOf 65).bind (fun p => builtInTable.petals[p.1]?.map (·.code)) = some 65
      ∧ (∃ c ∈ (holding [{ cell 1 .glyph .queued with
            impressions := [{ petal := 12, offset := 0, level := 5, made := true }] }] idle).store.cells,
          (c.state = .queued ∨ c.state = .striking) ∧ ∃ i ∈ c.impressions, i.made = true)
      ∧ idle.store.cells = [] ∧ idle.seq.jobs = [] := by decide

/-- The bytes of a table of ID 3, every petal the same. -/
def tableBytes (kind code width level compositions : Byte) : List Byte :=
  [3, kind, 0, 95] ++ (List.range 100).flatMap (fun _ => [code, width, level]) ++ [compositions] ++ List.replicate 48 0

set_option maxRecDepth 8000 in
/-- R145 at its limits: kind 3 and 4, code 31, 32 and 1, PS widths 5, 15, 4 and 16, levels 1, 7, 0 and 8, 16 and 17 compositions. -/
theorem witness_TableLoadReplacesOrKeeps_record :
    tableRecordValid 3 (tableBytes 3 32 5 7 16) = true ∧ tableRecordValid 3 (tableBytes 3 0 15 1 16) = true
      ∧ tableRecordValid 3 (tableBytes 4 32 5 7 16) = false ∧ tableRecordValid 3 (tableBytes 3 31 5 7 16) = false
      ∧ tableRecordValid 3 (tableBytes 3 1 5 7 16) = false ∧ tableRecordValid 3 (tableBytes 3 32 4 7 16) = false
      ∧ tableRecordValid 3 (tableBytes 3 32 16 7 16) = false ∧ tableRecordValid 3 (tableBytes 3 32 5 0 16) = false
      ∧ tableRecordValid 3 (tableBytes 3 32 5 8 16) = false ∧ tableRecordValid 3 (tableBytes 3 32 5 7 17) = false
      ∧ tableRecordValid 4 (tableBytes 3 32 5 7 16) = false := by decide

/-- Ten entries of 24 letters and one of 5: 256 bytes. -/
def fullBucket : List (List Byte) := List.replicate 10 (List.replicate 24 1) ++ [List.replicate 5 1]

set_option maxRecDepth 8000 in
/-- The ending events of R127 at their limits: a bucket of 256 bytes, lengths 1, 2, 24 and 25, an entry that ends at the 256th byte or
behind it, an entry still short, and the match. -/
theorem witness_LookupReadsEnd_bucket :
    (∀ e ∈ fullBucket, 2 ≤ e.length ∧ e.length ≤ 24 ∧ e.map BitVec.toNat ≠ [20, 8, 5])
      ∧ (fullBucket.flatMap fun e => BitVec.ofNat 8 e.length :: e).length = 256
      ∧ ((fullBucket.take 10).flatMap fun e => BitVec.ofNat 8 e.length :: e).length = 250 ∧ 250 + 1 + (5 : Byte).toNat ≤ 256
      ∧ 256 < 250 + 1 + (6 : Byte).toNat ∧ (1 : Byte).toNat ≤ 1 ∧ 2 ≤ (2 : Byte).toNat ∧ (24 : Byte).toNat ≤ 24
      ∧ 24 < (25 : Byte).toNat ∧ ([20, 8] : List Byte).length < (3 : Byte).toNat ∧ (3 : Byte).toNat ≤ ([20, 8, 5] : List Byte).length
      ∧ (([20, 8, 5] : List Byte).take (3 : Byte).toNat).map BitVec.toNat = [20, 8, 5] := by decide

/-- Table 6-1 at its limits: the digits and their neighbours, 1, 2, 24 and 25 letters, 5 and 6 requests, the user list. -/
theorem witness_LookupReadsEnd_handOff :
    (48 ≤ 48 ∧ 57 ≤ 57) ∧ ¬(48 ≤ 47 ∧ 47 ≤ 57) ∧ ¬(48 ≤ 58 ∧ 58 ≤ 57)
      ∧ { idle.spell with enabled := false }.enabled = false
      ∧ (wordMode .word).spell.enabled = true ∧ ([97] : List Nat).length ≤ 1 ∧ 2 ≤ ([97, 97] : List Nat).length
      ∧ (List.replicate 24 97).length ≤ 24 ∧ 24 < (List.replicate 25 97).length
      ∧ (spellingLost (wordMode .word)).spell.availability = .unavailable ∧ (wordMode .word).spell.availability ≠ .unavailable
      ∧ [116, 104, 101].map foldCode = [20, 8, 5] ∧ [20, 8, 5] ∈ (flaggedWith [[20, 8, 5]]).spell.userList
      ∧ [20, 8, 5] ∉ idle.spell.userList ∧ (List.replicate 5 reading).length < 6 ∧ 6 ≤ (List.replicate 6 reading).length := by decide

/-- `wordMode` with these check requests and user words. -/
def checking (requests : List CheckRequest) (words : List (List Nat)) : State :=
  { wordMode .word with spell := { (wordMode .word).spell with queue := requests, userList := words } }

/-- R125: nothing to take, or one WAITING request behind those of no other kind, in the user list or not. -/
theorem witness_LookupReadsEnd_taking :
    (checking [] []).spell.lookup = none ∧ (checking [] []).spell.enabled = true ∧ (checking [] []).spell.availability = .available
      ∧ (checking [] []).mem.listRead = true ∧ (∀ q ∈ (checking [reading] []).spell.queue, q.reading = true)
      ∧ (checking [reading, { reading with word := { number := 2, generation := 0 }, reading := false }] []).spell.queue
        = [reading] ++ { reading with word := { number := 2, generation := 0 }, reading := false } :: []
      ∧ (∀ q ∈ [reading] ++ [], q.word ≠ ({ number := 2, generation := 0 } : WordRef))
      ∧ reading.letters ∈ (checking [] [[20, 8, 5]]).spell.userList ∧ reading.letters ∉ (checking [] []).spell.userList
      ∧ { idle.spell with enabled := false }.enabled = false ∧ State.reset.mem.listRead = false
      ∧ ({ idle with spell := { idle.spell with lookup := some (lookupAt none false) } } : State).spell.lookup ≠ none
      ∧ idle.spell.availability ≠ .available := by decide

/-- A list save of these pages under way. -/
def savingList (ps : List Nat) (readback retried : Bool) : State :=
  withMem idle fun m =>
    { m with
      nv := [.saveList (some { record := List.replicate 1024 7, pages := ps, readback := readback, retried := retried })] }

theorem witness_PagesAreWrittenAndVerified_list :
    (savingList [62, 63] true false).mem.nv
        = .saveList (some { record := List.replicate 1024 7, pages := 62 :: [63], readback := true, retried := false }) :: []
      ∧ (onBus .nvWrite false (savingList [63] false false)).mem.busJob = some .nvWrite
      ∧ (onBus .nvReadback false (savingList [63] true true)).mem.busJob = some .nvReadback := ⟨rfl, rfl, rfl⟩

set_option maxRecDepth 20000 in
theorem witness_PagesAreWrittenAndVerified_listPage :
    List.replicate 16 (7 : Byte) = pageOf (List.replicate 1024 7) 63
      ∧ List.replicate 16 (8 : Byte) ≠ pageOf (List.replicate 1024 7) 63 := by decide

/-- `idle` with a SAVE-SETTINGS outstanding whose save has not started, the image known and of these bytes. -/
def savesNext (image : List Byte) (known : Bool) : State :=
  withLink
    (withMem idle fun m => { m with nv := [.saveSettings none], image := image, pageKnown := List.replicate 4 known })
    fun k => { k with save := some 9 }

/-- The settings record of `idle`. -/
def idleRecord : List Byte := buildSettings (settingsInForce idle)

theorem witness_ArbiterGrantsInOrder_starts :
    (savesNext [] false).mem.transaction = none ∧ (savesNext [] false).mem.headerWaiting = false
      ∧ (savesNext [] false).mem.loadWaiting = none ∧ (savesNext [] false).mem.dictWaiting = false
      ∧ (savesNext [] false).mem.nv = .saveSettings none :: [] ∧ (savesNext [] false).link.save = some 9
      ∧ (withMem idle fun m => { m with nv := [.saveList none] }).mem.nv = .saveList none :: []
      ∧ (withMem (savesNext [] false) fun m => { m with dictWaiting := true, grantCounter := 4 }).mem.grantCounter = 4 :=
  ⟨rfl, rfl, rfl, rfl, rfl, rfl, rfl, rfl⟩

set_option maxRecDepth 20000 in
/-- R153: no page to write with the record known in the image, all four with no page known. -/
theorem witness_ArbiterGrantsInOrder_pages :
    (List.range 4).filter (fun n =>
        !((savesNext idleRecord true).mem.pageKnown[n]? == some true
          && pageOf (savesNext idleRecord true).mem.image n == pageOf idleRecord n)) = []
      ∧ (List.range 4).filter (fun n =>
          !((savesNext idleRecord false).mem.pageKnown[n]? == some true
            && pageOf (savesNext idleRecord false).mem.image n == pageOf idleRecord n)) = [0, 1, 2, 3] := by decide

/-- A CROSS in flight one unit short of its target, its platen steps made or not. -/
def crossing (done : Nat) : State :=
  withSeq (queued [.cross 8 122 done 5] idle) fun q =>
    { q with phase := .crossing, inFlight := true, carriage := some 121, carTarget := some 122 }

theorem witness_EncoderEdgeCountsProgress_crossing :
    (crossing 8).seq.homing = none ∧ (crossing 8).seq.carriage = some 121 ∧ (crossing 8).seq.carTarget = some 122
      ∧ (crossing 8).seq.phase = .crossing
      ∧ (crossing 8).seq.jobs = { kind := .cross 8 122 8 5, marked := false } :: [] ∧ (crossing 7).seq.phase = .crossing
      ∧ 8 ≤ 8 ∧ ¬8 ≤ 7 ∧ 121 < 122 := by decide

/-- An idle part that shows no ribbon or tape end has no suspend reason. -/
theorem no_reason (s : State) (hr : s.mon.levels.ribbonEnd = false) (ht : s.mon.levels.tapeEnd = false) :
    ¬ribbonReason s ∧ ¬tapeReason s :=
  ⟨fun h => by simp [ribbonReason, hr] at h, fun h => by simp [tapeReason, ht] at h⟩

theorem witness_SettledMotionStandsAtItsTarget_park :
    unsuspended idle ∧ idle.seq.inFlight = false ∧ idle.seq.jobs = [] ∧ idle.store.openLine.alignment = .flushLeft
      ∧ unsuspended (segmented .flushLeft 1320 220) ∧ (segmented .flushLeft 1320 220).store.openLine.segment.isSome = true
      ∧ unsuspended (segmented .justify 1320 220) ∧ (segmented .justify 1320 220).store.openLine.alignment ≠ .flushLeft
      ∧ (segmented .justify 1320 220).seq.jobs = [] :=
  ⟨⟨.inl rfl, rfl, rfl, no_reason _ rfl rfl⟩, rfl, rfl, rfl, ⟨.inl rfl, rfl, rfl, no_reason _ rfl rfl⟩, rfl
  , ⟨.inl rfl, rfl, rfl, no_reason _ rfl rfl⟩, by decide, rfl⟩

/-- An impression on petal 40 one unit to the right, made or not. -/
def mark40 (made : Bool) : Impression := { petal := 40, offset := 1, level := 3, made := made }

/-- `idle` with a job in flight or not, the carriage and the wheel at the impression `mark40` of position 200 or not, these lifters and
these sensor levels. -/
def atWork (k : JobKind) (there inFlight : Bool) (a b : LifterPos) (v : SensorLevels) : State :=
  let s := holding [{ cell 1 .glyph .queued with position := some 200, impressions := [mark40 true, mark40 false] }] idle
  let s : State := { s with mon := { s.mon with levels := v } }
  withSeq (queued [k] s) fun q =>
    { q with
      mech := if inFlight then .busy else .ready, inFlight := inFlight, ribbonLifter := a, tapeLifter := b
      carriage := some (if there then 201 else 200), petal := some (if there then 40 else 0) }

/-- The levels of `idle`, with a ribbon end or a tape end. -/
def levels (ribbonEnd tapeEnd : Bool) : SensorLevels := { idle.mon.levels with ribbonEnd := ribbonEnd, tapeEnd := tapeEnd }

/-- A job at rest in flight is worked whatever the ribbon and the tape show (R65). -/
theorem worksHead_atWork (k : JobKind) (there : Bool) (a b : LifterPos) (v : SensorLevels) :
    worksHead (atWork k there true a b v) :=
  ⟨⟨.inr (.inl rfl), rfl, rfl, fun h => h.2.2.elim nofun nofun, fun h => h.2.2.elim nofun nofun⟩, fun _ => .inl rfl⟩

theorem witness_HammerAndLiftersFinish_strike :
    worksHead (atWork (.strike (.cell 1)) false false .down .down (levels false false))
      ∧ worksHead (atWork (.strike (.cell 1)) false true .down .down (levels false false))
      ∧ worksHead (atWork (.strike (.cell 1)) true true .up .down (levels true false))
      ∧ worksHead (atWork (.strike (.detached 200 [mark40 true, mark40 false])) true true .up .down (levels false false))
      ∧ (atWork (.strike (.cell 1)) true true .up .down (levels true false)).seq.jobs
        = { kind := .strike (.cell 1), marked := false } :: []
      ∧ ((atWork (.strike (.cell 1)) true true .up .down (levels true false)).store.findCell 1).map
          (fun c => (c.position, c.impressions)) = some (some 200, [mark40 true] ++ mark40 false :: [])
      ∧ (mark40 true).made = true ∧ (mark40 false).made = false
      ∧ (atWork (.strike (.cell 1)) true true .up .down (levels true false)).seq.carriage = some (200 + (mark40 false).offset)
      ∧ (atWork (.strike (.cell 1)) true true .up .down (levels true false)).seq.petal = some (mark40 false).petal
      ∧ (atWork (.strike (.cell 1)) false true .down .down (levels false false)).seq.petal ≠ some (mark40 false).petal
      ∧ (levels true false).ribbonEnd = true ∧ (levels false false).ribbonEnd = false ∧ (levels false false).cover = true :=
  ⟨⟨⟨.inl rfl, rfl, rfl, no_reason _ rfl rfl⟩, fun h => by cases h⟩, worksHead_atWork .., worksHead_atWork ..
  , worksHead_atWork .., rfl, rfl, rfl, rfl, rfl, rfl, by decide, rfl, rfl, rfl⟩

theorem witness_HammerAndLiftersFinish_lift :
    worksHead (atWork (.lift 200 ([mark40 false] ++ mark40 true :: []) true 0) false true .down .down (levels false false))
      ∧ worksHead (atWork (.lift 200 ([] ++ mark40 false :: [mark40 true]) false 1) true true .down .up (levels false true))
      ∧ (atWork (.lift 200 ([] ++ mark40 false :: [mark40 true]) false 1) true true .down .up (levels false true)).seq.jobs
        = { kind := .lift 200 ([] ++ mark40 false :: [mark40 true]) false [mark40 true].length, marked := false } :: []
      ∧ (atWork (.lift 200 [mark40 true] false 0) true true .down .up (levels false true)).seq.carriage = some (200 + 1)
      ∧ (atWork (.lift 200 [mark40 true] false 0) true true .down .up (levels false true)).seq.petal = some (mark40 true).petal
      ∧ (atWork (.lift 200 [mark40 true] false 0) true true .down .down (levels false false)).seq.tapeLifter ≠ .up
      ∧ (levels false true).tapeEnd = true ∧ (levels false false).tapeEnd = false :=
  ⟨worksHead_atWork .., worksHead_atWork .., rfl, rfl, rfl, by decide, rfl, rfl⟩

theorem witness_PlatenStepCountsAndTurns_jobs :
    worksHead (atWork (.feed true 8 none 7) false true .up .down (levels false false)) ∧ 7 < 8
      ∧ worksHead (atWork (.feed true 8 none 8) false true .up .down (levels false false)) ∧ 8 ≤ 8
      ∧ worksHead (atWork (.cross 8 300 8 0) false true .up .down (levels false false))
      ∧ (atWork (.cross 8 300 8 0) false true .up .down (levels false false)).seq.carriage ≠ some 300
      ∧ (atWork (.cross 8 201 8 0) true true .up .down (levels false false)).seq.carriage = some 201
      ∧ (atWork (.feed true 8 none 8) false true .up .down (levels false false)).seq.inFlight = true
      ∧ worksHead (atWork (.strike (.detached 200 [mark40 true])) true true .up .down (levels true false))
      ∧ (∀ i ∈ [mark40 true], i.made = true) ∧ [mark40 true].length ≤ 1
      ∧ worksHead (atWork (.lift 200 [mark40 true] false 1) true true .up .down (levels false true)) :=
  ⟨worksHead_atWork .., by decide, worksHead_atWork .., by decide, worksHead_atWork .., by decide, rfl, rfl
  , worksHead_atWork .., by decide, by decide, worksHead_atWork ..⟩

/-- A STRIKE of a cell whose impressions are made, and the completion clause's levels. -/
theorem witness_PlatenStepCountsAndTurns_completion :
    ((holding [{ cell 1 .glyph .striking with impressions := [mark40 true] }] idle).store.findCell 1).map (·.impressions)
        = some [mark40 true]
      ∧ (atWork (.strike (.cell 1)) true true .up .down (levels false false)).seq.jobs
        = { kind := .strike (.cell 1), marked := false } :: []
      ∧ (levels false false).paper = true ∧ (withSensorLevel (levels false false) false .paper).paper = false
      ∧ idle.seq.suspend.paper = false ∧ (withSeq idle fun q => { q with suspend := { paper := true } }).seq.suspend.paper = true := by
  decide

/-- R66, R72, R77, R6: the completed STRIKE makes its cell PRINTED and its CLOSED line DONE; the linked FEED its return; a detached one
fixes the pending LIFT. -/
theorem test_completion :
    (fun s : State => (s.store.earlier.map fun l => (l.state, l.cells.map (·.state)), s.seq.jobs.map (·.kind), s.seq.inFlight))
        (completeHead (withSeq
          (queued [.strike (.cell 1), .feed true 8 none 0]
            (behind [closed true [cell 1 .glyph .striking, cell 2 .ret .printed]] idle)) fun q => { q with inFlight := true }))
        = ([(.done, [.printed, .printed])], [.feed true 8 none 0], false)
      ∧ (completeHead (queued [.strike (.detached 120 []), .lift 120 [mark40 true] true 0] idle)).seq.jobs.map (·.kind)
        = [.lift 120 [mark40 true] false 0] := by decide

theorem witness_WheelHomingEndsWithTheHubId_over :
    idle.store.earlier = [] ∧ (behind [closed true []] idle).store.earlier = [] ++ [closed true []]
      ∧ idle.mon.levels.paper = true ∧ (withSensorLevel idle.mon.levels false .paper).paper = false := by decide

/-- The suspend set: a paper-out feed, PAPER, a STRIKE at a ribbon end and a LIFT at a tape end not started, and the same in a homing. -/
theorem witness_SensorChangesActAndLatch_suspend :
    sequences idle ∧ (withSeq idle fun q => { q with paperFeed := some 0 }).seq.paperFeed ≠ none
      ∧ (withSeq idle fun q => { q with suspend := { paper := true } }).seq.suspend.paper = true
      ∧ ribbonReason (atWork (.strike (.cell 1)) false false .up .down (levels true false))
      ∧ (atWork (.strike (.cell 1)) false false .up .down (levels true false)).seq.suspend.ribbon = false
      ∧ tapeReason (atWork (.lift 200 [mark40 true] false 0) false false .up .down (levels false true))
      ∧ (atWork (.lift 200 [mark40 true] false 0) false false .up .down (levels false true)).seq.suspend.tape = false
      ∧ ribbonReason (withSeq (atWork (.strike (.cell 1)) false true .up .down (levels true false)) fun q => { q with phase := .paused })
      ∧ ¬sequences (withSeq (atWork (.strike (.cell 1)) false false .up .down (levels true false)) fun q => { q with mech := .homing })
      ∧ ribbonReason
          (withSeq (atWork (.strike (.cell 1)) false false .up .down (levels true false)) fun q => { q with mech := .homing }) :=
  ⟨.inl rfl, by decide, rfl, ⟨rfl, ⟨_, _, _, rfl⟩, .inl rfl⟩, rfl, ⟨rfl, ⟨_, _, _, _, _, _, rfl⟩, .inl rfl⟩, rfl
  , ⟨rfl, ⟨_, _, _, rfl⟩, .inr rfl⟩, by simp [sequences, withSeq], ⟨rfl, ⟨_, _, _, rfl⟩, .inl rfl⟩⟩

/-- R90: a ribbon end before a STRIKE that has not started suspends the part, with the latch. -/
theorem test_ribbon_end_suspends :
    (fun s : State => (s.seq.mech, s.seq.suspend.ribbon, s.mon.latches.has .ribbonEnd, s.seq.inFlight))
      (after (exec (.sensorLevelChange .ribbonEnd true) (atWork (.strike (.cell 1)) false false .down .down (levels false false))))
      = (.suspended, true, true, false) := by decide

theorem witness_IdleCountdownEntersStandby_conditions :
    (idle.mon.idleMinutes ≠ 0 ∧ idle.mon.power = .running ∧ idle.seq.jobs = [] ∧ (∀ c ∈ idle.store.cells, c.state ≠ .held)
        ∧ idle.mem.transaction = none ∧ idle.mem.headerWaiting = false ∧ idle.mem.loadWaiting = none ∧ idle.mem.dictWaiting = false
        ∧ idle.mem.nv = [] ∧ idle.link.drain = none ∧ idle.seq.mech = .ready ∧ idle.seq.parking = false)
      ∧ idle.mon.idle = none ∧ ({ idle.mon with idle := some 1 } : Monitor).idle ≠ none ∧ (asleep idle).mon.power ≠ .running
      ∧ (queued [.feed true 8 none 0] idle).seq.jobs ≠ [] := by decide

/-- R56: a cell released without a position at the left margin, another behind it. -/
theorem witness_ReleasePassKeepsTheOrder_positions :
    (holding [cell 1 .glyph .held, cell 2 .glyph .held] idle).store.lines[0]?
        = some (holding [cell 1 .glyph .held, cell 2 .glyph .held] idle).store.openLine
      ∧ (fun t : State => (t.store.lines.map fun l => l.cells.map fun c => (c.state, c.position), t.seq.jobs.map (·.kind)))
          (releasePass (holding [cell 1 .glyph .held, cell 2 .glyph .held] idle))
        = ([[(.queued, some 120), (.queued, some 132)]], [.strike (.cell 1), .strike (.cell 2)])
      ∧ (cell 1 .glyph .held).position = none := by decide

/-! ### Witnesses of lines dropped, words handed over and crossings -/

/-- R187, R189: a request can be taken with 7 places of the output queue filled or reserved, not with 8. -/
theorem test_can_take_with_seven_places :
    canTake (withLink idle fun k => { k with output := List.replicate 5 (noticeFrame {}), drain := some 1, save := some 2 }) = true
      ∧ canTake (withLink idle fun k => { k with output := List.replicate 6 (noticeFrame {}), drain := some 1, save := some 2 })
        = false := by decide

/-- A group that becomes pending with 7 and with 8 places filled or reserved, and an event that makes none pending. -/
theorem witness_DeferredRequestsKeepTheirTag_notice :
    (setLatch .homed { idle with mon := { idle.mon with masks := GroupBits.none } }).mon.pendingSet.gained
        (pendingOf (GroupBits.none.withLatch .homed) GroupBits.none) = true
      ∧ idle.mon.pendingSet.gained (pendingOf idle.mon.latches idle.mon.masks) = false
      ∧ (List.replicate 6 (noticeFrame {})).length + (false.toNat + true.toNat + false.toNat) < 8
      ∧ 8 ≤ (List.replicate 6 (noticeFrame {})).length + (true.toNat + true.toNat + false.toNat) := by decide

/-- A DONE line of `n` cells, the return among them. -/
def doneLine (n : Nat) : Line :=
  { closed true (List.replicate n (cell 1 .glyph .printed)) with state := .done }

/-- Line lists of R7 and R8: none, one DONE line before the OPEN one, DONE lines with the need met after none, one or two, a line not DONE
in front, and a full list for a return. -/
theorem witness_EntryChecksInOrder_lines :
    linesToDrop false 2 idle.store = 0 ∧ linesToDrop false 400 (behind [doneLine 3] idle).store = 0
      ∧ linesToDrop false 384 (behind [doneLine 3, doneLine 4, doneLine 5] idle).store = 2
      ∧ linesToDrop false 375 (behind [doneLine 3, doneLine 4, doneLine 5] idle).store = 1
      ∧ linesToDrop false 372 (behind [doneLine 3, doneLine 4, doneLine 5] idle).store = 0
      ∧ linesToDrop false 384 (behind [closed true [cell 1 .glyph .held], doneLine 4, doneLine 5] idle).store = 0
      ∧ linesToDrop true 1 (behind [doneLine 3, doneLine 4, doneLine 5] idle).store = 1
      ∧ linesToDrop true 384 (behind [doneLine 3, doneLine 4, doneLine 5] idle).store = 2
      ∧ freeAfterDrop true 1 (behind [doneLine 3, doneLine 4, doneLine 5] idle).store = 375 := by decide

/-- Codes on a petal, composed of codes on petals, on no petal and 0, on a PS and a P10 wheel. -/
theorem witness_EntryChecksInOrder_wheel :
    psWheel.kind = .ps ∧ builtInTable.kind ≠ .ps
      ∧ psWheel.petalOf 85 = some (12, { code := 85, width := 14, level := 5 }) ∧ psWheel.petalOf 234 = none
      ∧ psWheel.compositions.find? (fun m => m.composite == 234) = some { composite := 234, base := 101, accent := 94 }
      ∧ psWheel.petalOf 101 = some (40, { code := 101, width := 9, level := 3 }) ∧ psWheel.onWheel 94 = true
      ∧ psWheel.onWheel 0 = false ∧ psWheel.onWheel 33 = false ∧ psWheel.glyphAvailable 234 = true := by decide

/-- The four cases of Table 1-6. -/
theorem witness_EntryChecksInOrder_point :
    idle.store.openLine.cells = []
      ∧ (segmented .justify 1320 220).store.openLine.segment = some { stop := 220, point := 120, tab := 1, cells := [2, 3] }
      ∧ ((segmented .justify 1320 220).store.openLine.cells.find? (fun c => c.seq == 1)).map (·.width) = some 76
      ∧ (segmented .justify 1320 220).store.openLine.cells.dropLast
          ++ [{ cell 3 .glyph .held with holds := { decimal := true } }] = (segmented .justify 1320 220).store.openLine.cells
      ∧ (holding [cell 1 .glyph .held] idle).store.openLine.cells = [] ++ [cell 1 .glyph .held]
      ∧ (holding [cell 1 .glyph .held] idle).store.openLine.segment = none
      ∧ (holding [cell 1 .glyph .held] idle).store.openLine.alignment = .flushLeft
      ∧ (freshLine { alignment := .justify }).segment = none ∧ (freshLine { alignment := .justify }).alignment ≠ .flushLeft := by
  decide

/-- Word 1 with a letter in a line to drop and one left, its check READING and its flag up; word 2 in the line left alone. -/
def wordAcross : State :=
  let l := fun n w => { cell n .glyph .printed with word := some { number := w, generation := 0 }, mark := some .pending }
  let s := behind [{ closed true [l 1 1] with state := .done }, closed true [l 2 1, l 3 2]] idle
  { s with
    spell :=
      { s.spell with
        queue := [reading, { reading with word := { number := 2, generation := 0 }, reading := false }]
        lookup := some (lookupAt none false)
        flagged := [{ word := { number := 1, generation := 0 }, letters := [20, 8, 5] }] } }

/-- R132: the lines of word 1 alone, of both words, and no line. -/
theorem witness_KeyEntersItsCell_drops :
    (wordAcross.store.earlier.take 1).flatMap (fun l => l.cells.map fun c => c.word.map (·.number)) = [some 1]
      ∧ (wordAcross.store.earlier.take 2).flatMap (fun l => l.cells.map fun c => c.word.map (·.number)) = [some 1, some 1, some 2]
      ∧ wordAcross.store.earlier.take 0 = []
      ∧ (∃ q ∈ wordAcross.spell.queue, (q.word.number == 1) = true ∧ q.reading = true)
      ∧ wordAcross.spell.lookup = some (lookupAt none false) := by decide

/-- R132: what that drop leaves: the letter of word 1 in SKIP, that of word 2 as it was, one check, the lookup stale, no flag. -/
theorem test_drop_withdraws :
    (fun s : State => (s.store.cells.map (·.mark), s.spell.queue.map (·.word.number), s.spell.lookup.map (·.stale), s.spell.flagged))
      (dropLines 1 wordAcross) = ([some .skip, some .pending], [2], some true, []) := by decide

/-- The word that a return ends: open with an apostrophe pending, open without one, none. -/
theorem witness_ReturnClosesTheLine_word :
    apostrophePending.store.openWord ≠ none ∧ apostrophePending.store.pendingApostrophe ≠ none
      ∧ idle.store.openWord = none ∧ idle.store.pendingApostrophe = none
      ∧ (enterReturn false apostrophePending).store.openWord = none
      ∧ (enterReturn false apostrophePending).store.pendingApostrophe = none
      ∧ (enterReturn false apostrophePending).store.cells.map (·.mark) = [some .skip, none, none] := by decide

/-- A CENTER line with a released cell, a HELD one before it and two behind it, and its return. -/
def partlyReleased : Line :=
  { closed true [cell 1 .glyph .held, { cell 2 .glyph .printed with position := some 300 }, cell 3 .glyph .held, cell 4 .glyph .held
      , cell 5 .ret .held] with
    alignment := .center }

theorem witness_CorrectCrossesBack_held :
    partlyReleased.cells = ([cell 1 .glyph .held] ++ { cell 2 .glyph .printed with position := some 300 }
        :: [cell 3 .glyph .held, cell 4 .glyph .held]) ++ [cell 5 .ret .held]
      ∧ (cell 5 .ret .held).isReturn = true ∧ partlyReleased.alignment ≠ .flushLeft ∧ (cell 2 .glyph .printed).state ≠ .held
      ∧ (cell 2 .glyph .printed).isReturn = false ∧ (∀ x ∈ [cell 3 .glyph .held, cell 4 .glyph .held], x.state = .held)
      ∧ [cell 3 .glyph .held, cell 4 .glyph .held][0]? = some (cell 3 .glyph .held)
      ∧ [cell 3 .glyph .held, cell 4 .glyph .held][1]? = some (cell 4 .glyph .held)
      ∧ (crossBack partlyReleased (cell 5 .ret .held) (behind [partlyReleased] idle)).store.openLine.cells.map (·.position)
        = [some 312, some 300, some 324, some 336] := by decide

/-- A closed line of these cells and the return 9. -/
def wordLine (cs : List Cell) : Line := closed true (cs ++ [cell 9 .ret .held])

/-- A letter cell of word 1 whose verdict is in. -/
def letter1 : Cell := { cell 1 .glyph .held with word := some { number := 1, generation := 0 }, mark := some .hit }

/-- Table 5-3 at a crossing: a letter before the return, an apostrophe behind a letter, a space behind a letter, nothing. -/
theorem witness_CorrectCrossesBack_word :
    (behind [wordLine [letter1]] idle).store.earlier = [] ++ [wordLine [letter1]]
      ∧ (wordLine [letter1]).cells = ([] ++ [letter1]) ++ [cell 9 .ret .held] ∧ letter1.word = some { number := 1, generation := 0 }
      ∧ (wordLine [letter1, { cell 2 .glyph .held with code := 39 }]).cells
        = ([] ++ [letter1, { cell 2 .glyph .held with code := 39 }]) ++ [cell 9 .ret .held]
      ∧ (cell 2 .glyph .held).word = none ∧ (cell 2 .glyph .held).kind = .glyph
      ∧ (cell 2 .space .held).kind ≠ .glyph ∧ (cell 9 .ret .held).word = none
      ∧ idle.store.pendingApostrophe ≠ some (cell 9 .ret .held).seq := by decide

/-- R107, R108, R113: those crossings reopen the word, with the apostrophe pending behind it, or open nothing. -/
theorem test_crossing_reopens_the_word :
    (fun s : State => (s.store.openWord.map (·.generation), s.store.pendingApostrophe, s.store.openLine.cells.map (·.mark)))
        (crossBack (wordLine [letter1]) (cell 9 .ret .held) (behind [wordLine [letter1]] idle)) = (some 1, none, [some .unchecked])
      ∧ (fun s : State => (s.store.openWord.map (·.generation), s.store.pendingApostrophe))
          (crossBack (wordLine [letter1, { cell 2 .glyph .held with code := 39 }]) (cell 9 .ret .held) idle) = (some 1, some 2)
      ∧ (fun s : State => (s.store.openWord, s.store.openLine.cells.map (·.mark)))
          (crossBack (wordLine [letter1, cell 2 .space .held]) (cell 9 .ret .held) idle) = (none, [some .hit, none]) := by decide

/-! ### Witnesses of the memory link and the mechanism -/

/-- The other ends of a load: a homing and a decision that wait for another load, a wait with decision NONE. -/
theorem witness_TableLoadReplacesOrKeeps_others :
    (withSeq idle fun q => { q with mech := .homing, homingWait := .otherLoad 3 }).seq.homingWait = .otherLoad 3
      ∧ (waiting (some { load3 with homing := false }) idle).seq.mech = .wheelWait
      ∧ (waiting (some { load3 with homing := false }) idle).mem.wait
        = some { reason := .mismatch, hub := 7, decision := some { load3 with homing := false }, table := builtInTable }
      ∧ ({ load3 with homing := false } : LoadRequest) ≠ load3
      ∧ (waiting none idle).mem.wait = some { reason := .mismatch, hub := 7, decision := none, table := builtInTable } := by decide

/-- Fitting: WHEEL-ASSIGN of the active table, RESUME of a bound hub, and the three sources with the bus idle or busy. -/
theorem witness_TableLoadReplacesOrKeeps_fitted :
    ({ id := 0, assignHub := some 7, homing := false } : LoadRequest).assignHub ≠ none ∧ idle.mem.active.id = 0
      ∧ load3.assignHub = none ∧ (withMem idle fun m => { m with boundId := 7 }).mem.boundId = 7
      ∧ tableSource (withMem idle fun m => { m with header := some listing }).mem 3 = .rom
      ∧ tableSource idle.mem 0 = .builtIn ∧ tableSource idle.mem 3 = .absent ∧ idle.mem.boundId ≠ 7
      ∧ idle.mem.active = builtInTable ∧ psWheel ≠ builtInTable ∧ idle.mem.loadBusy = false
      ∧ (withMem idle fun m => { m with loadWaiting := some load3 }).mem.loadBusy = true := by decide

/-- Table 11-6: lists of no word, of words of 2 and 24 values, of values 1 and 27. -/
theorem witness_SettingsRecordRoundTrip_list :
    ([] : List (List Nat)).length ≤ 40 ∧ wordsSorted [] = true
      ∧ [[1, 27], List.replicate 24 27].length ≤ 40 ∧ wordsSorted [[1, 27], List.replicate 24 27] = true
      ∧ (∀ w ∈ [[1, 27], List.replicate 24 27], 2 ≤ w.length ∧ w.length ≤ 24 ∧ ∀ v ∈ w, 1 ≤ v ∧ v ≤ 27)
      ∧ wordsSorted [[1, 27], [1, 27]] = false ∧ ((List.range 40).map fun i => [i / 26 + 1, i % 26 + 1]).length ≤ 40
      ∧ wordsSorted ((List.range 40).map fun i => [i / 26 + 1, i % 26 + 1]) = true
      ∧ [[1, 27], List.replicate 24 27][1]? = some (List.replicate 24 27) ∧ 1 + 25 * 40 ≤ 1001 ∧ 1022 < 1023 := by decide

set_option maxRecDepth 60000 in
/-- R152: the record of "to", and the same record with its count, its order or a padding byte wrong. -/
theorem test_list_record :
    (buildList [[20, 15]]).take 5 = [1, 2, 20, 15, 0] ∧ (buildList [[20, 15]]).drop 1022 = [0, 218]
      ∧ parseList (buildList [[20, 15]]) = some [[20, 15]] ∧ parseList (buildList [[20, 15], [1, 2]]) = none
      ∧ parseList (buildList [[20, 28]]) = none := by decide

/-- A STRIKE in flight with no impression made and with one made; a job that is no STRIKE of a cell; no job. -/
theorem witness_TickMarksAndStalls_strike :
    (atWork (.strike (.cell 1)) true true .up .down (levels false false)).seq.inFlight = true
      ∧ (atWork (.strike (.cell 1)) true true .up .down (levels false false)).seq.jobs
        = { kind := .strike (.cell 1), marked := false } :: []
      ∧ (atWork (.strike (.cell 1)) true false .up .down (levels false false)).seq.inFlight = false
      ∧ (∀ n m js, (crossing 8).seq.jobs ≠ { kind := .strike (.cell n), marked := m } :: js)
      ∧ (homingAt ⟨.leftward 5, .ended 0⟩ idle).seq.mech = .homing := by
  refine ⟨rfl, rfl, rfl, ?_, rfl⟩
  intro n m js h
  cases h

/-- R87: the stall takes a cell that has no impression made back to QUEUED and leaves one with an impression made STRIKING. -/
theorem test_stall_requeues_the_cell :
    (stallMotion (holding [{ cell 1 .glyph .striking with impressions := [mark40 false] }]
        (atWork (.strike (.cell 1)) true true .up .down (levels false false)))).store.cells.map (·.state) = [.queued]
      ∧ (stallMotion (holding [{ cell 1 .glyph .striking with impressions := [mark40 true, mark40 false] }]
          (atWork (.strike (.cell 1)) true true .up .down (levels false false)))).store.cells.map (·.state) = [.striking] := by decide

set_option maxRecDepth 8000 in
theorem witness_TickAbandonsSilentTransactions_owners :
    (onBus .header false idle).mem.busJob = some .header ∧ (List.replicate 200 (0 : Byte)).length = 200
      ∧ parseHeader (List.replicate 200 0) = none
      ∧ (withMem idle fun m => { m with nv := [.readSettings] }).mem.nv = .readSettings :: []
      ∧ (withMem idle fun m => { m with nv := [.readList] }).mem.nv = .readList :: []
      ∧ (savingList [62, 63] true false).mem.nv
        = .saveList (some { record := List.replicate 1024 7, pages := 62 :: [63], readback := true, retried := false }) :: []
      ∧ (saving [3] true true).mem.nv
        = .saveSettings (some { record := List.replicate 64 7, pages := 3 :: [], readback := true, retried := true }) :: []
      ∧ (saving [3] true true).link.save = some 9
      ∧ (waiting none idle).seq.mech = .wheelWait ∧ idle.seq.mech ≠ .homing ∧ idle.seq.mech ≠ .wheelWait := by decide

/-- The settled and unsettled motions of an impression, and a park move at its target and short of it. -/
theorem witness_EncoderEdgeCountsProgress_settles :
    (fun q : Sequencer => q.phase = .moving ∧ q.carriage = q.carTarget ∧ q.wheelMove = none ∧ q.ribbonLifter = .up)
        (withSeq idle fun q => { q with phase := .moving, carTarget := some 120, ribbonLifter := .up }).seq
      ∧ ¬(withSeq idle fun q => { q with phase := .moving, carTarget := some 121 }).seq.carriage = some 121
      ∧ idle.seq.phase ≠ .moving ∧ idle.seq.phase ≠ .crossing
      ∧ (withSeq idle fun q => { q with parking := true, carTarget := some 120 }).seq.carriage = some 120
      ∧ (withSeq idle fun q => { q with parking := true, carTarget := some 121 }).seq.carriage ≠ some 121
      ∧ idle.seq.parking = false := by decide

/-- The bus idle, a load waiting and a load in flight; the built-in table active and not. -/
theorem witness_WheelHomingEndsWithTheHubId_outcomes :
    idle.mem.loadBusy = false ∧ (withMem idle fun m => { m with loadWaiting := some load3 }).mem.loadBusy = true
      ∧ (onBus (.load load3) false idle).mem.loadBusy = true ∧ (onBus .header false idle).mem.loadBusy = false
      ∧ idle.mem.active = builtInTable ∧ (withMem idle fun m => { m with active := psWheel }).mem.active ≠ builtInTable := by decide

/-- `idle` in WHEEL_WAIT, its active table replaced meanwhile by a load that outlived its homing (log 50). -/
def replacedInWait : State := withMem (waiting none idle) fun m => { m with active := psWheel }

/-- R12, R30, R48: the table from before the wait checks the keys and gives widths, gap test and column; after the wait the active one. -/
theorem test_table_in_force_in_wheel_wait :
    replacedInWait.mem.active.kind = .ps ∧ checkKey replacedInWait ⟨97, false, false, false⟩ = .ok .glyph
      ∧ (enterCell .glyph ⟨101, false, false, false⟩ replacedInWait).store.cells.map (·.width) = [12]
      ∧ checkKey (withMem idle fun m => { m with active := psWheel }) ⟨97, false, false, false⟩
        = .error { code := .noGlyph, latch := some .noGlyph }
      ∧ (enterCell .glyph ⟨101, false, false, false⟩ (withMem idle fun m => { m with active := psWheel })).store.cells.map (·.width)
        = [9] := ⟨rfl, rfl, by decide, rfl, by decide⟩

theorem witness_EntryChecksInOrder_table :
    replacedInWait.seq.mech = .wheelWait
      ∧ replacedInWait.mem.wait = some { reason := .mismatch, hub := 7, decision := none, table := builtInTable }
      ∧ idle.seq.mech ≠ .wheelWait ∧ idle.mem.wait = none := by decide

/-- R48: a typing point at the margin, at the first unit of a column and at its last. -/
theorem witness_OverlayShowsAndEnds_column :
    idle.store.openLine.typingPoint ≤ idle.store.openLine.left
      ∧ (fun l : Line => l.left ≤ l.typingPoint ∧ 1 * 12 ≤ l.typingPoint - l.left ∧ l.typingPoint - l.left < (1 + 1) * 12)
          (holding [{ cell 1 .glyph .held with position := some 120 }] idle).store.openLine
      ∧ (fun l : Line => l.left ≤ l.typingPoint ∧ 1 * 12 ≤ l.typingPoint - l.left ∧ l.typingPoint - l.left < (1 + 1) * 12)
          (holding [{ cell 1 .glyph .held with position := some 131 }] idle).store.openLine := by decide

/-- A load that ends in a homing before its comparison, or while that waits for the header. -/
theorem witness_TableLoadReplacesOrKeeps_early :
    (homingAt ⟨.leftward 5, .seeking 0⟩ idle).seq.mech = .homing ∧ (homingAt ⟨.leftward 5, .seeking 0⟩ idle).seq.homingWait = .none
      ∧ (withSeq idle fun q => { q with mech := .homing, homingWait := .header 3 }).seq.homingWait = .header 3 := by decide

/-- R25: with 20 stops and none at the position, a bad kind and a bad position (log 55). -/
theorem witness_TabRequestsChangeTheTable_both :
    20 ≤ twentyStops.store.settings.tabs.length ∧ (∀ t ∈ twentyStops.store.settings.tabs, t.position ≠ (1561 : Half).toNat)
      ∧ 1560 < (1561 : Half).toNat ∧ 1 < (2 : Byte).toNat := by decide

/-- R8: an oldest DONE line is reclaimed though the next is not DONE (log 54). -/
theorem test_reclaims_before_a_line_not_done :
    linesToDrop false 384 (behind [doneLine 3, closed true [cell 1 .glyph .held], doneLine 5] idle).store = 1 := by decide

/-- R42: a JUSTIFY line of a TAB and no GLYPH sets no JUSTIFY_SKIP (log 56); with a GLYPH it does. -/
theorem test_justify_skip_needs_a_glyph :
    (fun cs : List Cell => (placeJustify { freshLine {} with alignment := .justify } cs false 12).skip) [cell 1 .tab .held] = false
      ∧ (fun cs : List Cell => (placeJustify { freshLine {} with alignment := .justify } cs false 12).skip)
          [cell 1 .tab .held, cell 2 .glyph .held] = true := by decide

end Sys2Proof.Tests
end

section
/-! PROOFS. The display and its overlay (R48, R158 to R166): what one report shows at each position, the column number of the
status field, the checks of an overlay's fields and how a request that changes the display is answered; then O34. -/

namespace Sys2Proof.Machine

/-! ### The status field (R48, R161) -/

theorem columnNumber_of_le {t : WheelTable} {l : Line} (h : l.typingPoint ≤ l.left) : columnNumber t l = 1 := by
  simp [columnNumber, Nat.sub_eq_zero_of_le h]

theorem columnNumber_of_lt {t : WheelTable} {l : Line} {k : Nat} (h1 : k * t.kind.pitch.getD 12 ≤ l.typingPoint - l.left)
    (h2 : l.typingPoint - l.left < (k + 1) * t.kind.pitch.getD 12) : columnNumber t l = min 999 (k + 1) := by
  rw [columnNumber, Nat.div_eq_of_lt_le h1 h2]
  omega

theorem columnNumber_le (t : WheelTable) (l : Line) : columnNumber t l ≤ 999 := by
  unfold columnNumber; omega

/-- Up to 999 the hundreds digit is the whole quotient. -/
theorem columnCodes_of_le {n : Nat} (h : n ≤ 999) :
    columnCodes n = [if n < 100 then 32 else 48 + n / 100, if n < 10 then 32 else 48 + n / 10 % 10, 48 + n % 10] := by
  rw [columnCodes, Nat.mod_eq_of_lt (a := n / 100) (by omega)]

theorem spellingLetter_eq (k : Checker) :
    spellingLetter k = if k.enabled = false then 32 else if k.availability = .unavailable then 63 else 83 := by
  cases h : k.enabled <;> simp [spellingLetter, h]

/-! ### The text positions of the window (R160) -/

theorem textPosition_of_cell {cells : List Cell} {i : Nat} {c : Cell} (b : Bool) (h : cells[i]? = some c) :
    textPosition cells b i = { code := cellCode b c, underbar := decide (c.state ≠ .printed) } := by
  simp [textPosition, h, bne, BEq.beq]

theorem textPosition_cursor (cells : List Cell) (b : Bool) :
    textPosition cells b cells.length = { code := if b then cursorBlock else 32, underbar := false } := by
  simp [textPosition]

theorem textPosition_behind {cells : List Cell} {i : Nat} (b : Bool) (h : cells.length < i) :
    textPosition cells b i = { code := 32, underbar := false } := by
  simp [textPosition, List.getElem?_eq_none (Nat.le_of_lt h), Nat.ne_of_gt h]

/-! ### The frame of one report (R158, R163, R165) -/

theorem refreshDisplay_frame_of_not_on {s : State} (h : s.disp.state ≠ .on) : (refreshDisplay s).disp.frame = s.disp.frame := by
  cases hs : s.disp.state with
  | on => exact absurd hs h
  | starting => simp [refreshDisplay, showFrame, frameToShow, hs]
  | off => simp [refreshDisplay, showFrame, frameToShow, hs]

theorem refreshDisplay_frame_of_overlay {s : State} {codes : List Nat} (h : s.disp.state = .on) (ho : s.disp.overlay = some codes) :
    (refreshDisplay s).disp.frame = codes.map fun c => { code := c, underbar := false } := by
  simp [refreshDisplay, showFrame, frameToShow, h, ho]

theorem refreshDisplay_frame_of_window {s : State} (h : s.disp.state = .on) (ho : s.disp.overlay = none) :
    (refreshDisplay s).disp.frame
      = (List.range 32).map (fun k => textPosition s.store.openLine.cells s.disp.blinkOn
          (windowStart s.store.openLine.cells.length s.disp.winStart + k))
        ++ (statusCodes s).map fun c => { code := c, underbar := false } := by
  simp [refreshDisplay, showFrame, frameToShow, h, ho, windowFrame, statusCodes, tableInForce]

theorem refreshDisplay_frame_text {s : State} {i : Nat} (h : s.disp.state = .on) (ho : s.disp.overlay = none) (hi : i < 32) :
    (refreshDisplay s).disp.frame[i]?
      = some (textPosition s.store.openLine.cells s.disp.blinkOn
          (windowStart s.store.openLine.cells.length s.disp.winStart + i)) := by
  rw [refreshDisplay_frame_of_window h ho, List.getElem?_append_left (by simpa using hi)]
  simp [List.getElem?_range hi]

theorem refreshDisplay_frame_status {s : State} (h : s.disp.state = .on) (ho : s.disp.overlay = none) :
    (refreshDisplay s).disp.frame.drop 32 = (statusCodes s).map fun c => { code := c, underbar := false } := by
  rw [refreshDisplay_frame_of_window h ho]
  exact List.drop_left' (by simp)

/-! ### Answers of requests that changed the display -/

/-- Neither the frame in hand nor the restarted countdown shows on the display. -/
theorem reply_refreshDisplay_atBlock {s : State} (h : s.link.hand = none) (kind tag : Byte) (p : List Byte) (r : Request)
    (d : Display) :
    reply kind tag p (refreshDisplay { atBlock tag r s with disp := d })
      = answered (replyFrame kind tag p) (refreshDisplay { s with disp := d }) :=
  answer_atBlock (s := refreshDisplay { s with disp := d }) h _ tag r

/-! ### DISPLAY-OVERLAY (R165) -/

theorem overlayValid_iff (o p : Byte) (codes : List Byte) :
    overlayValid o p codes = true
      ↔ o.toNat ≤ 25 ∧ 1 ≤ p.toNat ∧ p.toNat ≤ 40 ∧ (∀ c ∈ codes, 32 ≤ c.toNat) ∧ p.toNat + codes.length ≤ 41 := by
  simp [overlayValid, and_assoc]

/-- The refused fields of R165, each a range that is left. -/
theorem overlayValid_eq_false {o p : Byte} {codes : List Byte}
    (h : 25 < o.toNat ∨ p.toNat = 0 ∨ 40 < p.toNat ∨ (∃ c ∈ codes, c.toNat < 32) ∨ 40 < p.toNat + codes.length - 1) :
    overlayValid o p codes = false := by
  rw [Bool.eq_false_iff, Ne, overlayValid_iff]
  rintro ⟨ho, hp1, hp40, hcodes, hend⟩
  obtain h | h | h | ⟨c, hc, hlt⟩ | h := h
  case inr.inr.inr.inl => exact absurd (hcodes c hc) (by omega)
  all_goals omega

theorem doDisplayOverlay_of_invalid {o p : Byte} {codes : List Byte} (h : overlayValid o p codes = false) (tag : Byte) (s : State) :
    doDisplayOverlay tag o p codes s = refuse 0x17 tag .badValue s := by
  simp [doDisplayOverlay, h]

/-- An overlay that does not begin at position 1 continues the one shown; where none is shown there is nothing to continue. -/
theorem doDisplayOverlay_of_nothing {o p : Byte} {codes : List Byte} {s : State} (h : overlayValid o p codes = true)
    (hp : p.toNat ≠ 1) (hs : s.disp.overlay = none) (tag : Byte) :
    doDisplayOverlay tag o p codes s = refuse 0x17 tag .nothing s := by
  simp [doDisplayOverlay, h, hp, hs]

theorem doDisplayOverlay_of_base {o p : Byte} {codes : List Byte} {s : State} {base : List Nat}
    (h : overlayValid o p codes = true)
    (hb : p.toNat = 1 ∧ base = List.replicate 40 32 ∨ p.toNat ≠ 1 ∧ s.disp.overlay = some base) (tag : Byte) :
    doDisplayOverlay tag o p codes s
      = reply 0x17 tag [] (refreshDisplay { s with
          disp :=
            { s.disp with
              overlay := some (writeAt (p.toNat - 1) (codes.map BitVec.toNat) base)
              overlayTimer := if o = 0 then none else some o.toNat } }) := by
  obtain ⟨hp, rfl⟩ | ⟨hp, hs⟩ := hb
  · simp [doDisplayOverlay, h, hp]
  · simp [doDisplayOverlay, h, hp, hs]

/-! ### DISPLAY-RELEASE and the time-out (R166) -/

theorem doDisplayRelease_of_none {s : State} (h : s.disp.overlay = none) (tag : Byte) :
    doDisplayRelease tag s = reply 0x18 tag [0] s := by
  simp [doDisplayRelease, h]

theorem doDisplayRelease_of_shown {s : State} (h : s.disp.overlay ≠ none) (tag : Byte) :
    doDisplayRelease tag s = reply 0x18 tag [1] (refreshDisplay { s with disp := endOverlay s.disp }) := by
  simp [doDisplayRelease, Option.isSome_iff_ne_none.mpr h]

theorem overlayExpiry_of_running {s : State} (h : s.disp.overlayTimer ≠ none) :
    overlayExpiry s = refreshDisplay { s with disp := endOverlay s.disp } := by
  simp [overlayExpiry, Option.isSome_iff_ne_none.mpr h]

theorem overlayExpiry_of_stopped {s : State} (h : s.disp.overlayTimer = none) : overlayExpiry s = s := by
  simp [overlayExpiry, h]

/-! ### The request rows, taken at once -/

theorem Taken.exec_displayOverlay {s : State} (h : Taken s) (tag o p : Byte) (codes : List Byte) :
    exec (.displayOverlay tag o p codes) s
      = .next (doDisplayOverlay tag o p codes (atBlock tag (.displayOverlay o p codes) s)) :=
  congrArg Host.Outcome.next (hostRequest_taken h tag _)

theorem Taken.exec_displayRelease {s : State} (h : Taken s) (tag : Byte) :
    exec (.displayRelease tag) s = .next (doDisplayRelease tag (atBlock tag .displayRelease s)) :=
  congrArg Host.Outcome.next (hostRequest_taken h tag _)

theorem Taken.exec_displayOverlay_badValue {s : State} (h : Taken s) {o p : Byte} {codes : List Byte}
    (hv : overlayValid o p codes = false) (tag : Byte) :
    exec (.displayOverlay tag o p codes) s = .next (answered { kind := 0xE1, tag := tag, payload := [3, 0x17] } s) := by
  rw [h.exec_displayOverlay, doDisplayOverlay_of_invalid hv]
  exact congrArg _ (answer_atBlock h.hand _ tag _)

theorem Taken.exec_displayOverlay_nothing {s : State} (h : Taken s) {o p : Byte} {codes : List Byte}
    (hv : overlayValid o p codes = true) (hp : p.toNat ≠ 1) (hs : s.disp.overlay = none) (tag : Byte) :
    exec (.displayOverlay tag o p codes) s = .next (answered { kind := 0xE1, tag := tag, payload := [10, 0x17] } s) := by
  rw [h.exec_displayOverlay, doDisplayOverlay_of_nothing (s := atBlock tag _ s) hv hp hs]
  exact congrArg _ (answer_atBlock h.hand _ tag _)

theorem Taken.exec_displayOverlay_written {s : State} (h : Taken s) {o p : Byte} {codes : List Byte} {base : List Nat}
    (hv : overlayValid o p codes = true)
    (hb : p.toNat = 1 ∧ base = List.replicate 40 32 ∨ p.toNat ≠ 1 ∧ s.disp.overlay = some base) (tag : Byte) :
    exec (.displayOverlay tag o p codes) s
      = .next (answered { kind := 0x97, tag := tag, payload := [] }
          (refreshDisplay { s with
            disp :=
              { s.disp with
                overlay := some (writeAt (p.toNat - 1) (codes.map BitVec.toNat) base)
                overlayTimer := if o = 0 then none else some o.toNat } })) := by
  rw [h.exec_displayOverlay, doDisplayOverlay_of_base (s := atBlock tag _ s) hv hb]
  exact congrArg _ (reply_refreshDisplay_atBlock h.hand _ tag _ _ _)

theorem Taken.exec_displayRelease_none {s : State} (h : Taken s) (hs : s.disp.overlay = none) (tag : Byte) :
    exec (.displayRelease tag) s = .next (answered { kind := 0x98, tag := tag, payload := [0] } s) := by
  rw [h.exec_displayRelease, doDisplayRelease_of_none (s := atBlock tag _ s) hs]
  exact congrArg _ (answer_atBlock h.hand _ tag _)

theorem Taken.exec_displayRelease_shown {s : State} (h : Taken s) (hs : s.disp.overlay ≠ none) (tag : Byte) :
    exec (.displayRelease tag) s
      = .next (answered { kind := 0x98, tag := tag, payload := [1] } (refreshDisplay { s with disp := endOverlay s.disp })) := by
  rw [h.exec_displayRelease, doDisplayRelease_of_shown (s := atBlock tag _ s) hs]
  exact congrArg _ (reply_refreshDisplay_atBlock h.hand _ tag _ _ _)

/-! ### The statement -/

/-- Settles O34: the answers of the two requests from their rules above, the column from its quotient, the frame position by
position. -/
theorem overlayShowsAndEnds : Obligations.OverlayShowsAndEnds := by
  unfold Obligations.OverlayShowsAndEnds
  refine ⟨fun tag o p codes s hs => ⟨?refused, ?accepted, ?noneShown, ?released⟩, ?column, ?timeOut, ?frame⟩
  case refused => exact fun h => hs.exec_displayOverlay_badValue (overlayValid_eq_false h) tag
  case accepted =>
    intro ho hp1 hp40 hcodes hend
    have hv : overlayValid o p codes = true := (overlayValid_iff o p codes).mpr ⟨ho, hp1, hp40, hcodes, hend⟩
    have hp : p = 1 ↔ p.toNat = 1 := BitVec.toNat_inj.symm
    have ht : o = 0 ↔ o.toNat = 0 := BitVec.toNat_inj.symm
    refine ⟨fun hne hnone => hs.exec_displayOverlay_nothing hv (mt hp.mpr hne) hnone tag, fun base hb => ?_⟩
    rw [Ne, hp] at hb
    simpa only [writeAt, List.length_map, ht] using hs.exec_displayOverlay_written hv hb tag
  case noneShown => exact fun h => hs.exec_displayRelease_none h tag
  case released => exact fun h => hs.exec_displayRelease_shown h tag
  case column =>
    intro t l c hc
    obtain rfl : c = t.kind.pitch.getD 12 := hc.trans (by cases t.kind <;> rfl)
    exact ⟨columnNumber_of_le, fun k _ h1 h2 => columnNumber_of_lt h1 h2⟩
  case timeOut =>
    exact fun u => ⟨fun h => congrArg _ (overlayExpiry_of_running h), fun h => congrArg _ (overlayExpiry_of_stopped h)⟩
  case frame =>
    rintro u cells start n f plain rfl rfl rfl rfl hplain
    refine ⟨rfl, refreshDisplay_frame_of_not_on, fun codes hon ho => ?_, fun hon ho => ⟨fun i c hi hc => ?_, fun i hi hc => ?_,
      fun i hi hc => ?_, ?_⟩⟩
    · rw [refreshDisplay_frame_of_overlay hon ho, funext hplain]
    · rw [refreshDisplay_frame_text hon ho hi, textPosition_of_cell _ hc]; rfl
    · rw [refreshDisplay_frame_text hon ho hi, hc, textPosition_cursor, hplain]
    · rw [refreshDisplay_frame_text hon ho hi, textPosition_behind _ hc, hplain]
    · rw [refreshDisplay_frame_status hon ho, statusCodes, columnCodes_of_le (columnNumber_le _ _), spellingLetter_eq]
      simp only [hplain]
      cases u.seq.mech <;> rfl

end Sys2Proof.Machine
end

section
/-! PROOFS. Requests whose reply is deferred (R60, R61, R155, R190): what DRAIN marks and waits for, how it is answered, what SAVE-SETTINGS
leaves outstanding, and what the end of an event judges for them: the pending set with its NOTICE (R173) and the type-ahead events
(R59); then O20. -/

namespace Sys2Proof.Machine

/-! ### A change of every cell of the store -/

theorem cells_mapCells (f : Cell → Cell) (s : LineStore) : (s.mapCells f).cells = s.cells.map f := by
  simp [LineStore.cells, LineStore.lines, LineStore.mapCells, LineStore.mapLines, Line.mapCells, List.map_flatMap, List.flatMap_map]

/-- A change that leaves every cell as it is leaves the store as it is. -/
theorem mapCells_of_forall_eq {f : Cell → Cell} {s : LineStore} (h : ∀ c ∈ s.cells, f c = c) : s.mapCells f = s := by
  have line (l : Line) (hl : l ∈ s.lines) : Line.mapCells f l = l := by
    have hc : l.cells.map f = l.cells :=
      (List.map_congr_left fun c hc => h c (List.mem_flatMap.mpr ⟨l, hl, hc⟩)).trans (List.map_id _)
    rw [Line.mapCells, hc]
  have hearlier : s.earlier.map (Line.mapCells f) = s.earlier :=
    (List.map_congr_left fun l hl => line l (by simp [LineStore.lines, hl])).trans (List.map_id _)
  have hopen : Line.mapCells f s.openLine = s.openLine := line _ (by simp [LineStore.lines])
  rw [LineStore.mapCells, LineStore.mapLines, hearlier, hopen]

/-! ### What DRAIN marks and waits for (R60, R61) -/

theorem drainWaits_iff (s : State) :
    drainWaits s = true
      ↔ (∃ c ∈ s.store.cells, c.drainMark = true ∧ c.state ≠ .printed) ∨ ∃ j ∈ s.seq.jobs, j.marked = true := by
  simp [drainWaits]

/-- DRAIN marks the very things it waits for: the cells not PRINTED and the jobs. -/
theorem drainWaits_markDrain (s : State) :
    drainWaits (markDrain s) = true ↔ (∃ c ∈ s.store.cells, c.state ≠ .printed) ∨ s.seq.jobs ≠ [] := by
  simp only [drainWaits, markDrain, cells_mapCells, List.any_map, Function.comp_def, Bool.or_eq_true, List.any_eq_true]
  refine or_congr (exists_congr fun c => and_congr_right fun _ => ?cell) ⟨fun ⟨_, hj, _⟩ => List.ne_nil_of_mem hj, fun h => ?job⟩
  case cell => by_cases hp : c.state = .printed <;> simp [hp]
  case job => exact ⟨_, List.head_mem h, trivial⟩

/-- With every cell PRINTED and no job DRAIN marks nothing. -/
theorem markDrain_of_printed {s : State} (hc : ∀ c ∈ s.store.cells, c.state = .printed) (hj : s.seq.jobs = []) :
    markDrain s = s := by
  have hstore : s.store.mapCells (fun c => if c.state = .printed then c else { c with drainMark := true }) = s.store :=
    mapCells_of_forall_eq fun c h => if_pos (hc c h)
  have hjobs : s.seq.jobs.map (fun j => { j with marked := true }) = s.seq.jobs := by rw [hj]; rfl
  rw [markDrain, hstore, hjobs]

/-! ### The DRAIN request (R60) -/

theorem doDrain_of_outstanding {s : State} (h : s.link.drain ≠ none) (tag : Byte) : doDrain tag s = refuse 0x12 tag .busy s := by
  simp [doDrain, Option.isSome_iff_ne_none.mpr h]

theorem doDrain_of_nothing {s : State} (hd : s.link.drain = none) (hc : ∀ c ∈ s.store.cells, c.state = .printed)
    (hj : s.seq.jobs = []) (tag : Byte) : doDrain tag s = reply 0x12 tag [] s := by
  have hw : ¬ drainWaits (markDrain s) = true := by
    rw [drainWaits_markDrain]
    rintro (⟨c, hm, hp⟩ | hne)
    · exact hp (hc c hm)
    · exact hne hj
  rw [markDrain_of_printed hc hj] at hw
  simp [doDrain, hd, markDrain_of_printed hc hj, hw]

/-- An outstanding DRAIN keeps the idle countdown stopped (R179). -/
theorem refreshIdle_of_drain {s : State} (h : s.link.drain ≠ none) : refreshIdle s = { s with mon.idle := none } := by
  have hi : idleHolds s = false := by simp [idleHolds, h]
  simp [refreshIdle, hi]

theorem doDrain_of_something {s : State} (hd : s.link.drain = none)
    (h : (∃ c ∈ s.store.cells, c.state ≠ .printed) ∨ s.seq.jobs ≠ []) (tag : Byte) :
    doDrain tag s
      = { markDrain s with mon.idle := none, link := { s.link with drain := some tag, hand := none } } := by
  have hw := (drainWaits_markDrain s).mpr h
  simp only [doDrain, hd, hw, Option.isSome_none, Bool.false_eq_true, if_false, if_true]
  exact refreshIdle_of_drain (Option.some_ne_none tag)

theorem Taken.exec_drain {s : State} (h : Taken s) (tag : Byte) :
    exec (.drain tag) s = .next (doDrain tag (atBlock tag .drain s)) :=
  congrArg Host.Outcome.next (hostRequest_taken h tag _)

theorem Taken.exec_drain_busy {s : State} (h : Taken s) (hd : s.link.drain ≠ none) (tag : Byte) :
    exec (.drain tag) s = .next (answered { kind := 0xE1, tag := tag, payload := [4, 0x12] } s) := by
  rw [h.exec_drain, doDrain_of_outstanding (s := atBlock tag _ s) hd]
  exact congrArg _ (answer_atBlock h.hand _ tag _)

theorem Taken.exec_drain_nothing {s : State} (h : Taken s) (hd : s.link.drain = none)
    (hc : ∀ c ∈ s.store.cells, c.state = .printed) (hj : s.seq.jobs = []) (tag : Byte) :
    exec (.drain tag) s = .next (answered { kind := 0x92, tag := tag, payload := [] } s) := by
  rw [h.exec_drain, doDrain_of_nothing (s := atBlock tag _ s) hd hc hj]
  exact congrArg _ (answer_atBlock h.hand _ tag _)

theorem Taken.exec_drain_outstanding {s : State} (h : Taken s) (hd : s.link.drain = none)
    (hm : (∃ c ∈ s.store.cells, c.state ≠ .printed) ∨ s.seq.jobs ≠ []) (tag : Byte) :
    exec (.drain tag) s = .next { markDrain s with mon.idle := none, link := { s.link with drain := some tag } } := by
  rw [h.exec_drain, doDrain_of_something (s := atBlock tag _ s) hd hm, ← h.hand]
  rfl

/-! ### The answer of an outstanding DRAIN (R61, R190) -/

theorem drainCheck_of_none {s : State} (h : s.link.drain = none) : drainCheck s = s := by
  simp [drainCheck, h]

theorem drainCheck_of_waiting {s : State} (h : drainWaits s = true) : drainCheck s = s := by
  unfold drainCheck
  split
  · rfl
  · rw [if_pos h]

theorem drainCheck_of_over {s : State} {tag : Byte} (h : s.link.drain = some tag) (hw : drainWaits s = false) :
    drainCheck s
      = { s with
          store := s.store.mapCells fun c => { c with drainMark := false }
          link := { s.link with output := s.link.output ++ [replyFrame 0x12 tag []], drain := none } } := by
  simp [drainCheck, h, hw]

/-! ### The SAVE-SETTINGS request (R155) -/

theorem doSaveSettings_of_outstanding {s : State} (h : s.link.save ≠ none) (tag : Byte) :
    doSaveSettings tag s = refuse 0x1F tag .busy s := by
  simp [doSaveSettings, Option.isSome_iff_ne_none.mpr h]

theorem doSaveSettings_of_none {s : State} (h : s.link.save = none) (tag : Byte) :
    doSaveSettings tag s
      = eventEnd s.store.unprinted
          { s with
            mem := { s.mem with nv := s.mem.nv ++ [.saveSettings none] }
            link := { s.link with save := some tag, hand := none } } := by
  simp [doSaveSettings, h]

theorem Taken.exec_saveSettings {s : State} (h : Taken s) (tag : Byte) :
    exec (.saveSettings tag) s = .next (doSaveSettings tag (atBlock tag .saveSettings s)) :=
  congrArg Host.Outcome.next (hostRequest_taken h tag _)

theorem Taken.exec_saveSettings_busy {s : State} (h : Taken s) (hs : s.link.save ≠ none) (tag : Byte) :
    exec (.saveSettings tag) s = .next (answered { kind := 0xE1, tag := tag, payload := [4, 0x1F] } s) := by
  rw [h.exec_saveSettings, doSaveSettings_of_outstanding (s := atBlock tag _ s) hs]
  exact congrArg _ (answer_atBlock h.hand _ tag _)

theorem Taken.exec_saveSettings_queued {s : State} (h : Taken s) (hs : s.link.save = none) (tag : Byte) :
    exec (.saveSettings tag) s
      = .next (eventEnd s.store.unprinted
          { restartIdle s with
            mem := { s.mem with nv := s.mem.nv ++ [.saveSettings none] }
            link := { s.link with save := some tag } }) := by
  rw [h.exec_saveSettings, doSaveSettings_of_none (s := atBlock tag _ s) hs, ← h.hand]
  rfl

/-! ### The pending set and its NOTICE (R173) -/

theorem gained_iff (old p : PendingSet) :
    old.gained p = true
      ↔ p.mech = true ∧ old.mech = false ∨ p.text = true ∧ old.text = false ∨ p.spell = true ∧ old.spell = false
        ∨ p.link = true ∧ old.link = false ∨ p.sense = true ∧ old.sense = false := by
  simp [PendingSet.gained, or_assoc]

theorem noticeCheck_of_gained {s : State} (hg : s.mon.pendingSet.gained (pendingOf s.mon.latches s.mon.masks) = true)
    (hf : places s.link < 8) :
    noticeCheck s
      = { s with
          mon := { s.mon with pendingSet := pendingOf s.mon.latches s.mon.masks }
          link := { s.link with output := s.link.output ++ [noticeFrame (pendingOf s.mon.latches s.mon.masks)] } } := by
  have hfree : 0 < freePlaces s.link := Nat.sub_pos_of_lt hf
  simp [noticeCheck, hg, hfree]

theorem noticeCheck_of_silent {s : State}
    (h : s.mon.pendingSet.gained (pendingOf s.mon.latches s.mon.masks) = false ∨ 8 ≤ places s.link) :
    noticeCheck s = { s with mon := { s.mon with pendingSet := pendingOf s.mon.latches s.mon.masks } } := by
  obtain hg | hf := h
  · simp [noticeCheck, hg]
  · have hfree : freePlaces s.link = 0 := Nat.sub_eq_zero_of_le hf
    simp [noticeCheck, hfree]

/-! ### The type-ahead events (R59) -/

theorem judgeTypeAhead_high {before : Nat} {s : State} (hb : before < 112) (ha : 112 ≤ s.store.unprinted) :
    judgeTypeAhead before s = setLatch .taHigh s := by
  have hne : s.store.unprinted ≠ 0 := by omega
  simp [judgeTypeAhead, setLatchIf, hb, ha, hne]

theorem judgeTypeAhead_empty {before : Nat} {s : State} (hb : 0 < before) (ha : s.store.unprinted = 0) :
    judgeTypeAhead before s = setLatch .taEmpty s := by
  simp [judgeTypeAhead, setLatchIf, hb, ha]

theorem judgeTypeAhead_none {before : Nat} {s : State} (hh : 112 ≤ before ∨ s.store.unprinted < 112)
    (he : before = 0 ∨ s.store.unprinted ≠ 0) : judgeTypeAhead before s = s := by
  have hhigh : ¬(before < 112 ∧ 112 ≤ s.store.unprinted) := by omega
  have hempty : ¬(0 < before ∧ s.store.unprinted = 0) := by omega
  simp only [judgeTypeAhead, setLatchIf, hhigh, hempty, decide_false, Bool.false_eq_true, if_false]

/-! ### The statement -/

/-- Settles O20: the two requests by what stands outstanding, DRAIN's judgement by what it waits for, the NOTICE by the groups gained and
the places filled, the type-ahead events by the count before and after. -/
theorem deferredRequestsKeepTheirTag : Obligations.DeferredRequestsKeepTheirTag := by
  unfold Obligations.DeferredRequestsKeepTheirTag
  refine ⟨?drain, ?save, fun _ _ => rfl, ?judged, ?pending, ?notice, ?typeAhead⟩
  case drain =>
    exact fun tag s hs => ⟨fun h => hs.exec_drain_busy h tag, fun h hc hj => hs.exec_drain_nothing h hc hj tag,
      fun h hm => hs.exec_drain_outstanding h hm tag⟩
  case save =>
    exact fun tag s hs => ⟨fun h => hs.exec_saveSettings_busy h tag, fun h => hs.exec_saveSettings_queued h tag⟩
  case judged =>
    refine fun s => ⟨drainCheck_of_none, fun h => drainCheck_of_waiting ((drainWaits_iff s).mpr h), fun tag ht hc hj => ?_⟩
    have hw : drainWaits s = false := by
      rw [Bool.eq_false_iff, Ne, drainWaits_iff]
      rintro (⟨c, hm, hd, hp⟩ | ⟨j, hm, hk⟩)
      · exact hp (hc c hm hd)
      · exact absurd hk (by simp [hj j hm])
    exact drainCheck_of_over ht hw
  case pending =>
    refine fun latches masks old p => ⟨?_, gained_iff old p⟩
    rintro rfl
    simp [pendingOf]
  case notice =>
    rintro s p filled rfl rfl
    exact ⟨noticeCheck_of_gained, noticeCheck_of_silent⟩
  case typeAhead =>
    exact fun before s => ⟨judgeTypeAhead_high, judgeTypeAhead_empty, judgeTypeAhead_none⟩

end Sys2Proof.Machine
end

section
/-! PROOFS. The release pass (R31 to R37, R55 to R57): the impression list in the terms of chapter 2, what one release makes of a cell, the
pass over the cells of a line and over the lines as a relation with its own induction, and what that induction gives: cells by place, jobs,
positions, and where the pass stops; then O59. -/

namespace Sys2Proof.Machine

/-! ### The impression list (R32 to R36) -/

theorem codeImpression_eq_struck (t : WheelTable) (code : Nat) : codeImpression t code = fun offset => struck t offset code := rfl

theorem struck_of_off_wheel {t : WheelTable} {code : Nat} (h : t.petalOf code = none) (offset : Nat) : struck t offset code = [] := by
  simp [struck, h]

/-- The impressions of the glyph part, without bold repeats (R32, R33). -/
def glyphPart (t : WheelTable) (c : Cell) : List Impression := (glyphCodes t c).flatMap (struck t 0)

theorem glyphPart_of_not_glyph {t : WheelTable} {c : Cell} (h : c.kind ≠ .glyph) : glyphPart t c = [] := by
  simp [glyphPart, glyphCodes, h]

theorem glyphPart_of_petal {t : WheelTable} {c : Cell} {n : Nat} {p : Petal} (h : c.kind = .glyph)
    (hp : t.petalOf c.code = some (n, p)) :
    glyphPart t c = [{ petal := n, offset := 0, level := p.level, made := false }] := by
  simp [glyphPart, glyphCodes, WheelTable.onWheel, struck, h, hp]

theorem glyphPart_of_composite {t : WheelTable} {c : Cell} {m : Composition} (h : c.kind = .glyph)
    (hp : t.petalOf c.code = none) (hm : t.compositionOf c.code = some m) :
    glyphPart t c = struck t 0 m.base ++ struck t 0 m.accent := by
  simp [glyphPart, glyphCodes, WheelTable.onWheel, h, hp, hm]

theorem glyphPart_of_missing {t : WheelTable} {c : Cell} (h : c.kind = .glyph) (hp : t.petalOf c.code = none)
    (hm : t.compositionOf c.code = none) : glyphPart t c = [] := by
  simp [glyphPart, glyphCodes, WheelTable.onWheel, struck_of_off_wheel, h, hp, hm]

/-- The clauses of R32 and R33 leave one glyph part. -/
theorem eq_glyphPart {t : WheelTable} {c : Cell} {glyph : List Impression} (hother : c.kind ≠ .glyph → glyph = [])
    (hglyph : c.kind = .glyph →
      (∀ n p, t.petalOf c.code = some (n, p) → glyph = [{ petal := n, offset := 0, level := p.level, made := false }])
      ∧ (∀ m, t.petalOf c.code = none → t.compositionOf c.code = some m → glyph = struck t 0 m.base ++ struck t 0 m.accent)
      ∧ (t.petalOf c.code = none → t.compositionOf c.code = none → glyph = [])) :
    glyph = glyphPart t c := by
  by_cases hc : c.kind = .glyph
  case neg => rw [glyphPart_of_not_glyph hc, hother hc]
  obtain ⟨petal, composite, missing⟩ := hglyph hc
  cases hp : t.petalOf c.code with
  | some np => rw [glyphPart_of_petal hc hp, petal _ _ hp]
  | none =>
    cases hm : t.compositionOf c.code with
    | some m => rw [glyphPart_of_composite hc hp hm, composite m hp hm]
    | none => rw [glyphPart_of_missing hc hp hm, missing hp hm]

theorem underscorePart_of_plain {t : WheelTable} {c : Cell} (h : c.underline = false) : underscorePart t c = [] := by
  simp [underscorePart, h]

/-- An underscore on no petal strikes nothing at any offset, so the offsets alone say what is struck (R32, R35). -/
theorem underscorePart_of_underlined {t : WheelTable} {c : Cell} (h : c.underline = true) :
    underscorePart t c
      = if c.width ≤ underscoreWidth t then struck t 0 t.underscore
        else (List.range ((c.width + underscoreWidth t - 1) / underscoreWidth t)).flatMap fun i =>
          struck t (min (i * underscoreWidth t) (c.width - underscoreWidth t)) t.underscore := by
  have hoffsets : underscorePart t c
      = (underscoreOffsets c.width (underscoreWidth t)).flatMap fun offset => struck t offset t.underscore := by
    cases hp : t.petalOf t.underscore with
    | none => simp [underscorePart, WheelTable.onWheel, struck_of_off_wheel, hp]
    | some p => simp [underscorePart, WheelTable.onWheel, codeImpression_eq_struck, h, hp]
  rw [hoffsets, underscoreOffsets]
  split <;> simp [List.flatMap_map]

theorem underscoreWidth_eq (t : WheelTable) :
    underscoreWidth t
      = match t.kind with | .p10 => 12 | .p12 => 10 | .p15 => 8 | .ps => ((t.petalOf t.underscore).map (·.2.width)).getD 0 := by
  unfold underscoreWidth
  cases t.kind <;> rfl

theorem length_flatMap_twice (l : List Impression) : (l.flatMap twice).length = 2 * l.length := by
  induction l with
  | nil => rfl
  | cons i l ih =>
    rw [List.flatMap_cons, List.length_append, ih, List.length_cons, twice, List.length_cons, List.length_cons, List.length_nil]
    omega

theorem buildImpressions_plain {t : WheelTable} {c : Cell} (h : c.bold = false) :
    buildImpressions t c = glyphPart t c ++ underscorePart t c := by
  simp [buildImpressions, boldRepeats, h, glyphPart, codeImpression_eq_struck]

/-- Underscores keep their bold repeats unless the list would pass 8 (R34, R36). -/
theorem buildImpressions_bold {t : WheelTable} {c : Cell} (h : c.bold = true) :
    buildImpressions t c
      = if 8 < 2 * ((glyphPart t c).length + (underscorePart t c).length) then
          (glyphPart t c).flatMap twice ++ underscorePart t c
        else (glyphPart t c).flatMap twice ++ (underscorePart t c).flatMap twice := by
  have hlen : ((glyphPart t c).flatMap twice ++ (underscorePart t c).flatMap twice).length
      = 2 * ((glyphPart t c).length + (underscorePart t c).length) := by
    rw [List.length_append, length_flatMap_twice, length_flatMap_twice, Nat.mul_add]
  rw [← hlen]
  simp only [buildImpressions, boldRepeats, h, if_true]
  rfl

/-! ### One cell released (R56, Table 3-2) -/

section
variable (t : WheelTable) (spacing endAt : Nat) (c : Cell)

/-- The cell a release leaves, its branches by what it is to do in print. -/
theorem releaseCell_fst :
    (releaseCell t spacing endAt c).1
      = { c with
          position := some (c.position.getD endAt), holds := {}
          impressions := if c.strikes then buildImpressions t c else []
          state := if c.isReturn = true ∨ (if c.strikes then buildImpressions t c else []) ≠ [] then .queued else .printed } := by
  unfold releaseCell
  cases hr : c.isReturn
  · cases himp : (if c.strikes then buildImpressions t c else []) <;> simp
  · simp

theorem queued_or_printed_ne_held (p : Prop) [Decidable p] : (if p then CellState.queued else .printed) ≠ .held := by
  by_cases hp : p
  · rw [if_pos hp]; decide
  · rw [if_neg hp]; decide

theorem state_releaseCell_ne_held : (releaseCell t spacing endAt c).1.state ≠ .held := by
  rw [releaseCell_fst]
  exact queued_or_printed_ne_held _

theorem releaseCell_snd (h : c.state = .held) :
    (releaseCell t spacing endAt c).2 = jobOfRelease spacing c (releaseCell t spacing endAt c).1 := by
  unfold releaseCell jobOfRelease
  cases hr : c.isReturn
  · cases himp : (if c.strikes then buildImpressions t c else []) <;> simp [h]
  · simp [h]

end

/-- What the pass makes of a cell it goes past: one no longer HELD stays as it is, a HELD one without a hold reason is released (R55). -/
inductive Passes (t : WheelTable) (spacing endAt : Nat) : Cell → Cell → Option Job → Prop
  | kept {c : Cell} (h : c.state ≠ .held) : Passes t spacing endAt c c none
  | released {c : Cell} (h : c.state = .held) (hh : c.holds = {}) :
    Passes t spacing endAt c (releaseCell t spacing endAt c).1 (releaseCell t spacing endAt c).2

/-- A pass over the cells of a line with their gap extras, from an end of the escapement and with job places left: the cells after it, the
jobs it appends, and whether it stopped. It stops only at a HELD cell with a hold reason, or with no job place left (R55, R57). -/
inductive CellsPass (t : WheelTable) (spacing : Nat) : Nat → Nat → List (Cell × Nat) → List Cell → List Job → Bool → Prop
  | done (endAt room : Nat) : CellsPass t spacing endAt room [] [] [] false
  | passed {endAt room x : Nat} {c d : Cell} {j : Option Job} {cs : List (Cell × Nat)} {ds : List Cell} {js : List Job} {stop : Bool}
    (h : Passes t spacing endAt c d j) (hroom : j.toList.length ≤ room)
    (rest : CellsPass t spacing (d.position.getD endAt + c.width + x) (room - j.toList.length) cs ds js stop) :
    CellsPass t spacing endAt room ((c, x) :: cs) (d :: ds) (j.toList ++ js) stop
  | stopped {endAt room x : Nat} {c : Cell} (cs : List (Cell × Nat)) (h : c.state = .held) (hs : c.holds ≠ {} ∨ room = 0) :
    CellsPass t spacing endAt room ((c, x) :: cs) (c :: cs.map (·.1)) [] true

theorem cellsPass_releaseCells (t : WheelTable) (spacing : Nat) (cs : List (Cell × Nat)) : ∀ endAt room,
    CellsPass t spacing endAt room cs (releaseCells t spacing endAt room cs).cells (releaseCells t spacing endAt room cs).jobs
      (releaseCells t spacing endAt room cs).stopped := by
  induction cs with
  | nil => exact fun endAt room => .done endAt room
  | cons p cs ih =>
    obtain ⟨c, x⟩ := p
    intro endAt room
    by_cases hheld : c.state = .held
    case neg =>
      simpa [releaseCells, hheld] using .passed (Passes.kept hheld) (Nat.zero_le _) (ih _ _)
    by_cases hholds : c.holds = {}
    case neg => simpa [releaseCells, hheld, hholds] using .stopped cs hheld (.inl hholds)
    have hpass : Passes t spacing endAt c _ _ := .released hheld hholds
    cases hj : (releaseCell t spacing endAt c).2 with
    | none =>
      rw [hj] at hpass
      simpa [releaseCells, hheld, hholds, hj] using .passed hpass (Nat.zero_le _) (ih _ _)
    | some j =>
      cases room with
      | zero => simpa [releaseCells, hheld, hholds, hj] using .stopped cs hheld (.inr rfl)
      | succ room =>
        rw [hj] at hpass
        simpa [releaseCells, hheld, hholds, hj] using .passed hpass (Nat.le_add_left 1 room) (ih _ _)

/-! ### What a cell keeps and gets in a pass (R56) -/

theorem Passes.state_ne_held {t : WheelTable} {spacing endAt : Nat} {c d : Cell} {j : Option Job}
    (h : Passes t spacing endAt c d j) : d.state ≠ .held := by
  cases h with
  | kept h => exact h
  | released _ _ => exact state_releaseCell_ne_held t spacing endAt c

/-- The job is that of Table 3-2. -/
theorem Passes.job_eq {t : WheelTable} {spacing endAt : Nat} {c d : Cell} {j : Option Job}
    (h : Passes t spacing endAt c d j) : j = jobOfRelease spacing c d := by
  cases h with
  | kept h => simp [jobOfRelease, h]
  | released h _ => exact releaseCell_snd t spacing endAt c h

/-- A cell that is not released has no job. -/
theorem jobOfRelease_self (spacing : Nat) (c : Cell) : jobOfRelease spacing c c = none := by
  unfold jobOfRelease
  rw [if_neg fun h => by simp [h.1] at h]

/-- The jobs of a row of cells, given the cells before and after a pass. -/
def releasedJobs (spacing : Nat) (before after : List Cell) : List Job :=
  (before.zip after).filterMap fun q => jobOfRelease spacing q.1 q.2

theorem releasedJobs_cons (spacing : Nat) (c d : Cell) (cs ds : List Cell) :
    releasedJobs spacing (c :: cs) (d :: ds) = (jobOfRelease spacing c d).toList ++ releasedJobs spacing cs ds := by
  cases h : jobOfRelease spacing c d <;> simp [releasedJobs, h]

theorem releasedJobs_self (spacing : Nat) (cs : List Cell) : releasedJobs spacing cs cs = [] := by
  induction cs with
  | nil => rfl
  | cons c cs ih => rw [releasedJobs_cons, jobOfRelease_self, ih]; rfl

theorem Passes.position_of_placeless {t : WheelTable} {spacing endAt : Nat} {c d : Cell} {j : Option Job}
    (h : Passes t spacing endAt c d j) (hc : c.state = .held) (hp : c.position = none) : d.position = some endAt := by
  cases h with
  | kept h => exact absurd hc h
  | released _ _ => simp [releaseCell_fst, hp]

theorem Passes.width {t : WheelTable} {spacing endAt : Nat} {c d : Cell} {j : Option Job}
    (h : Passes t spacing endAt c d j) : d.width = c.width := by
  cases h with
  | kept _ => rfl
  | released _ _ => exact congrArg CellShape.width (shape_releaseCell t spacing endAt c)

/-- A cell after a pass is as it was, or the pass went past it. -/
def PassedOver (t : WheelTable) (c d : Cell) : Prop := d = c ∨ ∃ spacing endAt j, Passes t spacing endAt c d j

theorem PassedOver.eq_of_not_released {t : WheelTable} {c d : Cell} (h : PassedOver t c d)
    (hn : c.state ≠ .held ∨ d.state = .held) : d = c := by
  obtain h | ⟨_, _, _, h⟩ := h
  · exact h
  · cases h with
    | kept _ => rfl
    | released hc hh => exact hn.elim (absurd hc) (absurd · (Passes.released hc hh).state_ne_held)

/-- A cell released has the state, the position and the impressions of R56 and Table 3-2. -/
theorem PassedOver.released {t : WheelTable} {c d : Cell} (h : PassedOver t c d) (hc : c.state = .held) (hd : d.state ≠ .held) :
    c.holds = {} ∧ d.shape = c.shape ∧ d.drainMark = c.drainMark ∧ d.mark = c.mark ∧ d.position.isSome = true
      ∧ (c.position ≠ none → d.position = c.position)
      ∧ d.impressions = (if c.strikes then buildImpressions t c else [])
      ∧ d.state = if c.isReturn = true ∨ d.impressions ≠ [] then .queued else .printed := by
  obtain rfl | ⟨spacing, endAt, _, h⟩ := h
  · exact absurd hc hd
  · cases h with
    | kept h => exact absurd hc h
    | released _ hh =>
      rw [releaseCell_fst]
      refine ⟨hh, rfl, rfl, rfl, rfl, fun hp => ?_, rfl, rfl⟩
      obtain ⟨p, hp⟩ := Option.ne_none_iff_exists'.mp hp
      simp [hp]

/-- After a pass the cells stand where they stood, each as it was or passed over. -/
def AllPassedOver (t : WheelTable) (before after : List Cell) : Prop :=
  after.length = before.length ∧ ∀ q ∈ before.zip after, PassedOver t q.1 q.2

theorem AllPassedOver.cons {t : WheelTable} {c d : Cell} {cs ds : List Cell} (h : PassedOver t c d) (hs : AllPassedOver t cs ds) :
    AllPassedOver t (c :: cs) (d :: ds) :=
  ⟨congrArg (· + 1) hs.1, List.forall_mem_cons.mpr ⟨h, hs.2⟩⟩

theorem AllPassedOver.refl (t : WheelTable) (cs : List Cell) : AllPassedOver t cs cs := by
  induction cs with
  | nil => exact ⟨rfl, fun _ h => absurd h List.not_mem_nil⟩
  | cons c cs ih => exact .cons (.inl rfl) ih

theorem AllPassedOver.append {t : WheelTable} {cs ds cs' ds' : List Cell} (h : AllPassedOver t cs ds)
    (h' : AllPassedOver t cs' ds') : AllPassedOver t (cs ++ cs') (ds ++ ds') := by
  obtain ⟨hlen, hcells⟩ := h
  obtain ⟨hlen', hcells'⟩ := h'
  refine ⟨by rw [List.length_append, List.length_append, hlen, hlen'], ?_⟩
  rw [List.zip_append hlen.symm]
  exact List.forall_mem_append.mpr ⟨hcells, hcells'⟩

theorem AllPassedOver.at {t : WheelTable} {cs ds : List Cell} (h : AllPassedOver t cs ds) {i : Nat} {c d : Cell}
    (hc : cs[i]? = some c) (hd : ds[i]? = some d) : PassedOver t c d :=
  h.2 (c, d) (List.mem_of_getElem? (List.getElem?_zip_eq_some.mpr ⟨hc, hd⟩))

/-! ### What a pass over the cells of a line gives -/

section
variable {t : WheelTable} {spacing endAt room : Nat} {cs : List (Cell × Nat)} {ds : List Cell} {js : List Job} {stop : Bool}

theorem CellsPass.passedOver (h : CellsPass t spacing endAt room cs ds js stop) :
    AllPassedOver t (cs.map (·.1)) ds := by
  induction h with
  | done => exact .refl t []
  | passed h _ _ ih => exact .cons (.inr ⟨_, _, _, h⟩) ih
  | stopped cs _ _ => exact .refl t _

/-- The jobs in entry order, one for each cell that the pass made QUEUED (R56). -/
theorem CellsPass.jobs_eq (h : CellsPass t spacing endAt room cs ds js stop) : js = releasedJobs spacing (cs.map (·.1)) ds := by
  induction h with
  | done => rfl
  | passed h _ _ ih => rw [List.map_cons, releasedJobs_cons, ih, h.job_eq]
  | stopped cs _ _ => exact (releasedJobs_self spacing _).symm

theorem CellsPass.jobs_length_le (h : CellsPass t spacing endAt room cs ds js stop) : js.length ≤ room := by
  induction h with
  | done => exact Nat.zero_le _
  | passed _ hroom _ ih => rw [List.length_append]; omega
  | stopped => exact Nat.zero_le _

/-- A cell released without a position: at the start of the pass, or at the end of the escapement of the cell before it (R31, R56). -/
theorem CellsPass.position (h : CellsPass t spacing endAt room cs ds js stop) {i x : Nat} {c d : Cell}
    (hc : cs[i]? = some (c, x)) (hd : ds[i]? = some d) (hheld : c.state = .held) (hrel : d.state ≠ .held)
    (hp : c.position = none) :
    (i = 0 → d.position = some endAt)
      ∧ ∀ j b y e p, i = j + 1 → cs[j]? = some (b, y) → ds[j]? = some e → e.position = some p →
          d.position = some (p + e.width + y) := by
  induction h generalizing i with
  | done => simp at hd
  | stopped cs _ _ =>
    obtain rfl : d = c := by
      have hmap := congrArg (Option.map Prod.fst) hc
      rw [← List.getElem?_map] at hmap
      exact Option.some.inj (hd.symm.trans hmap)
    exact absurd hheld hrel
  | passed h _ _ ih =>
    cases i with
    | zero =>
      simp only [List.getElem?_cons_zero, Option.some.injEq, Prod.mk.injEq] at hc hd
      obtain ⟨rfl, rfl⟩ := hc
      subst hd
      exact ⟨fun _ => h.position_of_placeless hheld hp, fun j _ _ _ _ hj => absurd hj (Nat.zero_ne_add_one j)⟩
    | succ i =>
      obtain ⟨first, behind⟩ := ih hc hd
      refine ⟨fun hi => absurd hi (Nat.succ_ne_zero i), fun j b y e p hj hb he hep => ?_⟩
      obtain rfl : i = j := by omega
      cases i with
      | zero =>
        simp only [List.getElem?_cons_zero, Option.some.injEq, Prod.mk.injEq] at hb he
        obtain ⟨rfl, rfl⟩ := hb
        subst he
        rw [first rfl, hep, h.width, Option.getD_some]
      | succ i => exact behind i b y e p rfl hb he hep

end

theorem zip_cellExtras_getElem? {l : Line} {i : Nat} {c : Cell} (h : l.cells[i]? = some c) :
    (l.cells.zip l.cellExtras)[i]? = some (c, gapExtra l i) := by
  have hi : i < l.cells.length := (List.getElem?_eq_some_iff.mp h).1
  rw [cellExtras_eq]
  exact List.getElem?_zip_eq_some.mpr ⟨h, by simp [hi]⟩

/-- The positions of R56 in a line: its left margin, or the end of the escapement of the cell before, its gap extra counted. -/
theorem CellsPass.position_in_line {t : WheelTable} {room : Nat} {l : Line} {ds : List Cell} {js : List Job} {stop : Bool}
    (h : CellsPass t l.spacing l.left room (l.cells.zip l.cellExtras) ds js stop) {i : Nat} {c d : Cell}
    (hc : l.cells[i]? = some c) (hd : ds[i]? = some d) (hheld : c.state = .held) (hrel : d.state ≠ .held) (hp : c.position = none) :
    (i = 0 → d.position = some l.left)
      ∧ ∀ j e p, i = j + 1 → ds[j]? = some e → e.position = some p → d.position = some (p + e.width + gapExtra l j) := by
  obtain ⟨first, behind⟩ := h.position (zip_cellExtras_getElem? hc) hd hheld hrel hp
  refine ⟨first, fun j e p hj he hep => ?_⟩
  have hlen : j < l.cells.length := by have := (List.getElem?_eq_some_iff.mp hc).1; omega
  exact behind j _ _ e p hj (zip_cellExtras_getElem? (List.getElem?_eq_getElem hlen)) he hep

/-! ### Where a pass stops (R55, R57) -/

theorem CellsPass.none_held {t : WheelTable} {spacing endAt room : Nat} {cs : List (Cell × Nat)} {ds : List Cell} {js : List Job}
    {stop : Bool} (h : CellsPass t spacing endAt room cs ds js stop) (hstop : stop = false) : ∀ d ∈ ds, d.state ≠ .held := by
  induction h with
  | done => exact fun _ h => absurd h List.not_mem_nil
  | passed h _ _ ih => exact List.forall_mem_cons.mpr ⟨h.state_ne_held, ih hstop⟩
  | stopped => cases hstop

/-- A pass that made `after` of the cells `before` stopped at `c`: the cells it went past are no longer HELD; `c` is, for a hold reason or
with every place taken; and from `c` on the cells are as they were. -/
structure StopsAt (room : Nat) (before after : List Cell) (js : List Job) (c : Cell) : Prop where
  held : c.state = .held
  reason : c.holds ≠ {} ∨ js.length = room
  split : ∃ past rest, after = past ++ c :: rest ∧ (∀ d ∈ past, d.state ≠ .held) ∧ c :: rest <:+ before

/-- Cells that a pass has gone past before, and their jobs, leave where it stops. -/
theorem StopsAt.behind {room : Nat} {before after : List Cell} {js js' : List Job} {c : Cell}
    (h : StopsAt (room - js.length) before after js' c) (hroom : js.length ≤ room) (cs : List Cell) {ds : List Cell}
    (hds : ∀ d ∈ ds, d.state ≠ .held) : StopsAt room (cs ++ before) (ds ++ after) (js ++ js') c := by
  obtain ⟨hheld, reason, past, rest, rfl, hpast, hrest⟩ := h
  refine ⟨hheld, reason.imp_right fun hl => ?_, ds ++ past, rest, (List.append_assoc _ _ _).symm,
    List.forall_mem_append.mpr ⟨hds, hpast⟩, hrest.trans (List.suffix_append _ _)⟩
  rw [List.length_append, hl]
  omega

/-- Cells of later lines leave where a pass stops. -/
theorem StopsAt.before {room : Nat} {before after : List Cell} {js : List Job} {c : Cell} (h : StopsAt room before after js c)
    (cs : List Cell) : StopsAt room (before ++ cs) (after ++ cs) js c := by
  obtain ⟨hheld, reason, past, rest, rfl, hpast, first, rfl⟩ := h
  exact ⟨hheld, reason, past, rest ++ cs, by simp, hpast, first, by simp⟩

theorem CellsPass.stopsAt {t : WheelTable} {spacing endAt room : Nat} {cs : List (Cell × Nat)} {ds : List Cell} {js : List Job}
    {stop : Bool} (h : CellsPass t spacing endAt room cs ds js stop) (hstop : stop = true) :
    ∃ c, StopsAt room (cs.map (·.1)) ds js c := by
  induction h with
  | done => cases hstop
  | passed h hroom _ ih =>
    obtain ⟨e, he⟩ := ih hstop
    exact ⟨e, he.behind hroom [_] (List.forall_mem_singleton.mpr h.state_ne_held)⟩
  | stopped cs hheld hs =>
    exact ⟨_, hheld, hs.imp_right Eq.symm, [], _, rfl, fun _ h => absurd h List.not_mem_nil, List.suffix_refl _⟩

/-! ### The pass over the lines -/

/-- A pass over lines, oldest first: each line in turn, until the pass stops in one (R55). `css` are the cells of the lines after it. -/
inductive LinesPass (t : WheelTable) : Nat → List Line → List (List Cell) → List Job → Bool → Prop
  | done (room : Nat) : LinesPass t room [] [] [] false
  | passed {room : Nat} {l : Line} {ls : List Line} {ds : List Cell} {css : List (List Cell)} {js js' : List Job} {stop : Bool}
    (h : CellsPass t l.spacing l.left room (l.cells.zip l.cellExtras) ds js false)
    (rest : LinesPass t (room - js.length) ls css js' stop) : LinesPass t room (l :: ls) (ds :: css) (js ++ js') stop
  | stopped {room : Nat} {l : Line} {ds : List Cell} {js : List Job} (ls : List Line)
    (h : CellsPass t l.spacing l.left room (l.cells.zip l.cellExtras) ds js true) :
    LinesPass t room (l :: ls) (ds :: ls.map (·.cells)) js true

theorem cellsPass_releaseLine (t : WheelTable) (room : Nat) (l : Line) :
    CellsPass t l.spacing l.left room (l.cells.zip l.cellExtras) (releaseLine t room l).cells (releaseLine t room l).jobs
      (releaseLine t room l).stopped :=
  cellsPass_releaseCells t l.spacing _ l.left room

theorem linesPass_releaseLines (t : WheelTable) (ls : List Line) : ∀ room,
    LinesPass t room ls ((releaseLines t room ls).1.map (·.cells)) (releaseLines t room ls).2.1 (releaseLines t room ls).2.2.2 := by
  induction ls with
  | nil => exact fun room => .done room
  | cons l ls ih =>
    intro room
    have hl := cellsPass_releaseLine t room l
    cases hs : (releaseLine t room l).stopped with
    | true =>
      rw [hs] at hl
      simpa [releaseLines, hs] using .stopped ls hl
    | false =>
      rw [hs] at hl
      simpa [releaseLines, hs] using .passed hl (ih _)

/-- One line more after a pass that did not stop. -/
theorem LinesPass.snoc {t : WheelTable} {room : Nat} {ls : List Line} {l : Line} {css : List (List Cell)} {ds : List Cell}
    {js js' : List Job} {stop stop' : Bool} (h : LinesPass t room ls css js stop) (hstop : stop = false)
    (hl : CellsPass t l.spacing l.left (room - js.length) (l.cells.zip l.cellExtras) ds js' stop') :
    LinesPass t room (ls ++ [l]) (css ++ [ds]) (js ++ js') stop' := by
  induction h with
  | stopped => cases hstop
  | done =>
    cases stop' with
    | false => simpa using LinesPass.passed hl (.done _)
    | true => exact .stopped [] hl
  | passed h rest ih =>
    rw [List.append_assoc]
    exact .passed h (ih hstop (by rwa [List.length_append, ← Nat.sub_sub] at hl))

/-- A stopped pass does not reach one line more. -/
theorem LinesPass.snoc_stopped {t : WheelTable} {room : Nat} {ls : List Line} {css : List (List Cell)} {js : List Job} {stop : Bool}
    (h : LinesPass t room ls css js stop) (hstop : stop = true) (l : Line) :
    LinesPass t room (ls ++ [l]) (css ++ [l.cells]) js true := by
  induction h with
  | done => cases hstop
  | passed h rest ih => exact .passed h (ih hstop)
  | stopped ls h => simpa using LinesPass.stopped (ls ++ [l]) h

theorem setLatchIf_store (b : Bool) (l : Latch) (s : State) : (setLatchIf b l s).store = s.store := by cases b <;> rfl

theorem setLatchIf_seq (b : Bool) (l : Latch) (s : State) : (setLatchIf b l s).seq = s.seq := by cases b <;> rfl

theorem settleDone_cells (l : Line) : l.settleDone.cells = l.cells := by
  unfold Line.settleDone; split <;> rfl

theorem lines_settleDone (s : LineStore) :
    s.settleDone.lines.map (·.cells) = s.earlier.map (·.cells) ++ [s.openLine.cells] := by
  simp [LineStore.lines, LineStore.settleDone, settleDone_cells]

/-- The release pass is one pass over the line list, with the places left in the job queue (R55, R67). -/
theorem linesPass_releasePass (s : State) :
    ∃ js stop, LinesPass s.mem.active (256 - s.seq.jobs.length) s.store.lines ((releasePass s).store.lines.map (·.cells)) js stop
      ∧ (releasePass s).seq = { s.seq with jobs := s.seq.jobs ++ js } := by
  have hearlier := linesPass_releaseLines s.mem.active s.store.earlier (256 - s.seq.jobs.length)
  simp only [releasePass, setLatchIf_store, setLatchIf_seq, lines_settleDone, List.append_assoc]
  cases hs : (releaseLines s.mem.active (256 - s.seq.jobs.length) s.store.earlier).2.2.2 with
  | true =>
    simp only [if_true, List.append_nil]
    exact ⟨_, _, hearlier.snoc_stopped hs s.store.openLine, rfl⟩
  | false =>
    simp only [Bool.false_eq_true, if_false]
    exact ⟨_, _, hearlier.snoc hs (cellsPass_releaseLine _ _ _), rfl⟩

/-! ### What the pass over the lines gives -/

section
variable {t : WheelTable} {room : Nat} {ls : List Line} {css : List (List Cell)} {js : List Job} {stop : Bool}

theorem LinesPass.jobs_length_le (h : LinesPass t room ls css js stop) : js.length ≤ room := by
  induction h with
  | done => exact Nat.zero_le _
  | passed h _ ih =>
    have := h.jobs_length_le
    rw [List.length_append]; omega
  | stopped _ h => exact h.jobs_length_le

theorem LinesPass.jobs_eq (h : LinesPass t room ls css js stop) :
    js = (ls.zip css).flatMap fun p => releasedJobs p.1.spacing p.1.cells p.2 := by
  induction h with
  | done => rfl
  | passed h _ ih => rw [List.zip_cons_cons, List.flatMap_cons, ← ih, h.jobs_eq, map_fst_zip_extras]
  | stopped ls h =>
    have hrest : (ls.zip (ls.map (·.cells))).flatMap (fun p => releasedJobs p.1.spacing p.1.cells p.2) = [] := by
      induction ls with
      | nil => rfl
      | cons l ls ih => simpa [releasedJobs_self] using ih
    rw [List.zip_cons_cons, List.flatMap_cons, hrest, List.append_nil, h.jobs_eq, map_fst_zip_extras]

theorem LinesPass.length_eq (h : LinesPass t room ls css js stop) : css.length = ls.length := by
  induction h with
  | done => rfl
  | passed _ _ ih => exact congrArg (· + 1) ih
  | stopped ls _ => exact congrArg (· + 1) (List.length_map _)

/-- Each line was passed over, or the pass stopped before it. -/
theorem LinesPass.line (h : LinesPass t room ls css js stop) {k : Nat} {l : Line} {ds : List Cell} (hl : ls[k]? = some l)
    (hd : css[k]? = some ds) :
    ds = l.cells ∨ ∃ room js stop, CellsPass t l.spacing l.left room (l.cells.zip l.cellExtras) ds js stop := by
  induction h generalizing k with
  | done => cases hl
  | passed h _ ih =>
    cases k with
    | zero =>
      obtain rfl := Option.some.inj hl
      obtain rfl := Option.some.inj hd
      exact .inr ⟨_, _, _, h⟩
    | succ k => exact ih hl hd
  | stopped ls h =>
    cases k with
    | zero =>
      obtain rfl := Option.some.inj hl
      obtain rfl := Option.some.inj hd
      exact .inr ⟨_, _, _, h⟩
    | succ k =>
      rw [List.getElem?_cons_succ] at hl hd
      rw [List.getElem?_map, hl] at hd
      exact .inl (Option.some.inj hd).symm

theorem LinesPass.passedOver (h : LinesPass t room ls css js stop) : AllPassedOver t (ls.flatMap (·.cells)) css.flatten := by
  have line {l : Line} {room : Nat} {ds : List Cell} {js : List Job} {stop : Bool}
      (h : CellsPass t l.spacing l.left room (l.cells.zip l.cellExtras) ds js stop) : AllPassedOver t l.cells ds :=
    map_fst_zip_extras l ▸ h.passedOver
  induction h with
  | done => exact .refl t []
  | passed h _ ih => exact (line h).append ih
  | stopped ls h => exact (line h).append (.refl t _)

theorem LinesPass.none_held (h : LinesPass t room ls css js stop) (hstop : stop = false) : ∀ d ∈ css.flatten, d.state ≠ .held := by
  induction h with
  | done => exact fun _ h => absurd h List.not_mem_nil
  | passed h _ ih => exact List.forall_mem_append.mpr ⟨h.none_held rfl, ih hstop⟩
  | stopped => cases hstop

theorem LinesPass.stopsAt (h : LinesPass t room ls css js stop) (hstop : stop = true) :
    ∃ c, StopsAt room (ls.flatMap (·.cells)) css.flatten js c := by
  induction h with
  | done => cases hstop
  | passed h _ ih =>
    obtain ⟨c, hc⟩ := ih hstop
    exact ⟨c, hc.behind h.jobs_length_le _ (h.none_held rfl)⟩
  | stopped ls h =>
    obtain ⟨c, hc⟩ := h.stopsAt rfl
    rw [map_fst_zip_extras] at hc
    exact ⟨c, hc.before _⟩

end

/-! ### Released cells before HELD ones (R55) -/

theorem releasedFirst_append {past : List Cell} (hp : ∀ c ∈ past, c.state ≠ .held) (rest : List Cell) :
    releasedFirst (past ++ rest) = releasedFirst rest := by
  rw [releasedFirst, List.dropWhile_append_of_pos (by simpa using hp)]
  rfl

theorem releasedFirst_of_none_held {cs : List Cell} (h : ∀ d ∈ cs, d.state ≠ .held) : releasedFirst cs = true :=
  (congrArg releasedFirst (List.append_nil cs)).symm.trans (releasedFirst_append h [])

theorem releasedFirst_tail {c : Cell} {cs : List Cell} (h : releasedFirst (c :: cs) = true) : releasedFirst cs = true := by
  by_cases hc : c.state = .held
  · have hall : ∀ d ∈ cs, d.state = .held := by simpa [releasedFirst, hc] using h
    exact List.all_eq_true.mpr fun d hd => beq_iff_eq.mpr (hall d ((List.dropWhile_suffix _).subset hd))
  · rwa [← List.singleton_append, releasedFirst_append (by simpa using hc)] at h

theorem releasedFirst_of_suffix {rest cs : List Cell} (h : releasedFirst cs = true) (hs : rest <:+ cs) : releasedFirst rest = true := by
  obtain ⟨past, rfl⟩ := hs
  induction past with
  | nil => exact h
  | cons c past ih => exact ih (releasedFirst_tail h)

theorem find?_held_of_none_held {cs : List Cell} (h : ∀ d ∈ cs, d.state ≠ .held) : cs.find? (fun c => c.state == .held) = none := by
  simpa using h

theorem StopsAt.find?_held {room : Nat} {before after : List Cell} {js : List Job} {c : Cell} (h : StopsAt room before after js c) :
    after.find? (fun c => c.state == .held) = some c := by
  obtain ⟨hheld, _, past, rest, rfl, hpast, _⟩ := h
  rw [List.find?_append, find?_held_of_none_held hpast]
  simp [hheld]

/-- What a stopped pass leaves stands in the order of before. -/
theorem StopsAt.releasedFirst {room : Nat} {before after : List Cell} {js : List Job} {c : Cell} (h : StopsAt room before after js c)
    (hb : releasedFirst before = true) : releasedFirst after = true := by
  obtain ⟨_, _, past, rest, rfl, hpast, hrest⟩ := h
  rw [releasedFirst_append hpast]
  exact releasedFirst_of_suffix hb hrest

/-! ### The statement -/

/-- Settles O59: the release pass is one `LinesPass`; where it stops gives the order and the limit, its cells by place give R56 and Table
3-2, its jobs and positions the rest, and the impression list is that of its two parts. -/
theorem releasePassKeepsTheOrder : Obligations.ReleasePassKeepsTheOrder := by
  unfold Obligations.ReleasePassKeepsTheOrder
  refine ⟨⟨?order, ?cells, ?impressions⟩, ?jobs⟩
  case order =>
    rintro s t rfl hfirst hjobs
    obtain ⟨js, stop, hpass, hseq⟩ := linesPass_releasePass s
    have hroom := hpass.jobs_length_le
    have hlen : (releasePass s).seq.jobs.length = s.seq.jobs.length + js.length := by rw [hseq, List.length_append]
    rw [LineStore.cells, List.flatMap_def]
    cases stop with
    | false =>
      have hnone := hpass.none_held rfl
      refine ⟨releasedFirst_of_none_held hnone, by omega, fun c hc => ?_⟩
      rw [find?_held_of_none_held hnone] at hc
      cases hc
    | true =>
      obtain ⟨c, hstop⟩ := hpass.stopsAt rfl
      refine ⟨hstop.releasedFirst hfirst, by omega, fun d hd => ?_⟩
      obtain rfl : c = d := Option.some.inj (hstop.find?_held.symm.trans hd)
      exact hstop.reason.imp_right fun h => by omega
  case cells =>
    rintro s t rfl
    obtain ⟨js, stop, hpass, _⟩ := linesPass_releasePass s
    have hcells : AllPassedOver s.mem.active s.store.cells (releasePass s).store.cells := hpass.passedOver
    refine ⟨hcells.1, fun i c d hc hd => ?_⟩
    have hcd := hcells.at hc hd
    exact ⟨hcd.eq_of_not_released, hcd.released⟩
  case impressions =>
    intro t c glyph under u k hother hglyph hu hk hplain hlined
    obtain rfl : glyph = glyphPart t c := eq_glyphPart hother hglyph
    obtain rfl : under = underscorePart t c := by
      cases hl : c.underline with
      | false => rw [underscorePart_of_plain hl, hplain hl]
      | true => rw [underscorePart_of_underlined hl, hlined hl, hk, hu.trans (underscoreWidth_eq t).symm]
    refine ⟨buildImpressions_plain, fun hb hfits => ?_, fun hb hpasses => ?_⟩
    · rw [buildImpressions_bold hb, if_neg (by omega)]
    · rw [buildImpressions_bold hb, if_pos hpasses]
  case jobs =>
    rintro s t rfl
    obtain ⟨js, stop, hpass, hseq⟩ := linesPass_releasePass s
    refine ⟨?_, ?_, fun k i l m c d hl hm hc hd hheld hrel hp => ?_⟩
    · rw [hseq, hpass.jobs_eq, List.zip_map_right, List.flatMap_map]
      rfl
    · exact (List.length_map _).symm.trans hpass.length_eq
    · obtain hsame | ⟨_, _, _, hrun⟩ := hpass.line (ds := m.cells) hl (by rw [List.getElem?_map, hm]; rfl)
      · obtain rfl : c = d := Option.some.inj (hc.symm.trans (hsame ▸ hd))
        exact absurd hheld hrel
      · exact hrun.position_in_line hc hd hheld hrel hp

end Sys2Proof.Machine
end

section
/-! PROOFS. Lift-off correction on a line with cells (R98, R101 to R112): the cells WORD-ERASE takes, the job of a removed cell, the word
tracker set back by the rows of Table 5-3, the removal of the last cell, and the three erasing requests; then O28, O26 and O25. -/

namespace Sys2Proof.Machine

/-! ### The cells WORD-ERASE takes (R110) -/

/-- A cell that can belong to the run WORD-ERASE takes: neither a SPACE nor a TAB. -/
def Cell.inRun (c : Cell) : Bool := c.kind != .space && c.kind != .tab

theorem Cell.inRun_iff (c : Cell) : c.inRun = true ↔ c.kind ≠ .space ∧ c.kind ≠ .tab := by
  simp [Cell.inRun]

theorem wordEraseCount_spaces {spaces : List Cell} (hs : ∀ c ∈ spaces, c.kind = .space) :
    wordEraseCount spaces = spaces.length := by
  have htake := List.takeWhile_append_of_pos (p := fun c : Cell => c.kind == .space) (l₂ := []) (by simpa using hs)
  rw [List.append_nil, List.takeWhile_nil, List.append_nil] at htake
  rw [wordEraseCount, htake, List.drop_length]

/-- The trailing spaces are counted before anything else, then by the cell that stands before them. -/
theorem wordEraseCount_append {spaces : List Cell} (hs : ∀ c ∈ spaces, c.kind = .space) {c : Cell} (hc : c.kind ≠ .space)
    (cs : List Cell) :
    wordEraseCount (spaces ++ c :: cs)
      = if c.kind = .tab then spaces.length + 1 else spaces.length + ((c :: cs).takeWhile Cell.inRun).length := by
  have htake : (spaces ++ c :: cs).takeWhile (fun c => c.kind == .space) = spaces := by
    rw [List.takeWhile_append_of_pos (by simpa using hs), List.takeWhile_cons_of_neg (by simpa using hc), List.append_nil]
  have hdrop : (spaces ++ c :: cs).drop spaces.length = c :: cs := List.drop_left
  rw [wordEraseCount, htake, hdrop]
  rfl

/-- The cells of a run are counted up to the SPACE, the TAB or the start of the line before it. -/
theorem takeWhile_inRun {run rest : List Cell} (hrun : ∀ c ∈ run, c.inRun = true) (hrest : ∀ c ∈ rest.head?, c.inRun = false) :
    (run ++ rest).takeWhile Cell.inRun = run := by
  rw [List.takeWhile_append_of_pos hrun]
  cases rest with
  | nil => exact List.append_nil _
  | cons c cs => rw [List.takeWhile_cons_of_neg (by simpa using hrest), List.append_nil]

theorem wordEraseCount_tab {spaces : List Cell} (hs : ∀ c ∈ spaces, c.kind = .space) {tab : Cell} (ht : tab.kind = .tab)
    (rest : List Cell) : wordEraseCount (spaces ++ tab :: rest) = spaces.length + 1 := by
  rw [wordEraseCount_append hs (by simp [ht]), if_pos ht]

theorem wordEraseCount_run {spaces run rest : List Cell} (hs : ∀ c ∈ spaces, c.kind = .space) (hne : run ≠ [])
    (hrun : ∀ c ∈ run, c.inRun = true) (hrest : ∀ c ∈ rest.head?, c.inRun = false) :
    wordEraseCount (spaces ++ (run ++ rest)) = spaces.length + run.length := by
  obtain ⟨c, cs, rfl⟩ := List.exists_cons_of_ne_nil hne
  obtain ⟨hspace, htab⟩ := (Cell.inRun_iff c).mp (hrun c List.mem_cons_self)
  rw [List.cons_append, wordEraseCount_append hs hspace, if_neg htab, ← List.cons_append, takeWhile_inRun hrun hrest]

/-- WORD-ERASE takes a cell of every line that has one. -/
theorem wordEraseCount_pos {cs : List Cell} (h : cs ≠ []) : 0 < wordEraseCount cs := by
  obtain ⟨c, cs, rfl⟩ := List.exists_cons_of_ne_nil h
  by_cases hs : c.kind = .space
  case pos =>
    rw [wordEraseCount, List.takeWhile_cons_of_pos (by simpa using hs)]
    dsimp only [List.length_cons]
    split
    · exact Nat.succ_pos _
    · split <;> exact Nat.add_pos_left (Nat.succ_pos _) _
  case neg =>
    rw [← List.nil_append (c :: cs), wordEraseCount_append (by simp) hs]
    by_cases ht : c.kind = .tab
    · simp [ht]
    · simp [ht, List.takeWhile_cons_of_pos ((Cell.inRun_iff c).mpr ⟨hs, ht⟩)]

/-- Settles O28: the erased cells are read off the line's end backwards, spaces first, then what stands before them. -/
theorem wordEraseTakesTheLastWord : Obligations.WordEraseTakesTheLastWord := by
  unfold Obligations.WordEraseTakesTheLastWord
  intro rest run spaces hspaces
  have hs : ∀ c ∈ spaces.reverse, c.kind = .space := by simpa using hspaces
  refine ⟨?spacesOnly, fun tab htab => ?tab, fun hne hrun hrest => ?run⟩
  case spacesOnly => simpa using wordEraseCount_spaces hs
  case tab => simpa using wordEraseCount_tab hs htab rest.reverse
  case run =>
    have hbefore : ∀ c ∈ rest.reverse.head?, c.inRun = false := by
      intro c hc
      obtain rfl | ⟨r, b, rfl, hb⟩ := hrest
      · cases hc
      · rw [List.reverse_concat] at hc
        obtain rfl : b = c := Option.some.inj hc
        obtain hb | hb := hb <;> simp [Cell.inRun, hb]
    have hcells : ∀ c ∈ run.reverse, c.inRun = true := by simpa [Cell.inRun_iff] using hrun
    simpa [Nat.add_comm] using wordEraseCount_run hs (by simpa using hne) hcells hbefore

/-! ### The job of a removed cell (Table 5-1, R102 to R106) -/

theorem removalOf_of_not_strikes {q : Sequencer} {c : Cell} (h : c.strikes = false) : removalOf q c = .free := by
  simp [removalOf, h]

theorem removalOf_held {q : Sequencer} {c : Cell} (hs : c.strikes = true) (h : c.state = .held) : removalOf q c = .free := by
  simp [removalOf, hs, h]

theorem removalOf_queued {q : Sequencer} {c : Cell} (hs : c.strikes = true) (h : c.state = .queued) :
    removalOf q c = if strikeInFlight q c.seq then .detach else .withdraw := by
  simp [removalOf, hs, h]

theorem removalOf_striking {q : Sequencer} {c : Cell} (hs : c.strikes = true) (h : c.state = .striking) :
    removalOf q c = .detach := by
  simp [removalOf, hs, h]

theorem removalOf_printed {q : Sequencer} {c : Cell} (hs : c.strikes = true) (h : c.state = .printed) :
    removalOf q c = if c.impressions.any (·.made) then .lift else .free := by
  simp [removalOf, hs, h]

theorem removeJob_of_free {q : Sequencer} {x : Cell} (h : removalOf q x = .free) : removeJob x q = q := by
  simp [removeJob, h]

theorem removeJob_of_withdraw {q : Sequencer} {x : Cell} (h : removalOf q x = .withdraw) :
    removeJob x q = { q with jobs := q.jobs.filter fun j => j.kind != .strike (.cell x.seq) } := by
  simp [removeJob, h]

theorem removeJob_of_lift {q : Sequencer} {x : Cell} (h : removalOf q x = .lift) :
    removeJob x q
      = { q with
          jobs := q.jobs
            ++ [{ kind := .lift (x.position.getD 0) (x.impressions.filter (·.made)) false 0, marked := false }] } := by
  simp [removeJob, h, madeOf]

theorem removeJob_of_detach {q : Sequencer} {x : Cell} (h : removalOf q x = .detach) :
    removeJob x q
      = { q with
          jobs :=
            (q.jobs.map fun j =>
              if j.kind = .strike (.cell x.seq) then
                { j with kind := .strike (.detached (x.position.getD 0) x.impressions) }
              else j)
            ++ [{ kind := .lift (x.position.getD 0) (x.impressions.filter (·.made)) true 0, marked := false }] } := by
  simp [removeJob, h, madeOf]

/-! ### A word reopened (R108) -/

theorem withdrawWord_eq (n : Nat) (s : State) :
    withdrawWord n s
      = { s with
          spell :=
            { s.spell with
              queue := s.spell.queue.filter fun q => q.word.number != n
              lookup :=
                if ∃ q ∈ s.spell.queue, q.word.number = n ∧ q.reading = true then
                  s.spell.lookup.map fun k => { k with stale := true }
                else s.spell.lookup
              flagged := s.spell.flagged.filter fun f => f.word.number != n } } := by
  simp only [withdrawWord, List.any_eq_true, Bool.and_eq_true, beq_iff_eq]

theorem reopenWord_eq (w : WordRef) (s : State) :
    reopenWord w s
      = { s with
          store :=
            { s.store.mapCells (fun c =>
                if c.word = some w then
                  { c with
                    word := some { number := w.number, generation := (w.generation + 1) % 256 }, mark := some .unchecked
                    holds := if wordCondition s = true ∧ c.state = .held then { c.holds with word := true } else c.holds }
                else c) with
              openWord := some { number := w.number, generation := (w.generation + 1) % 256 } }
          spell := (withdrawWord w.number s).spell } :=
  rfl

/-! ### The rows of Table 5-3 -/

theorem untrack_pending {x : Cell} {s : State} (h : s.store.pendingApostrophe = some x.seq) (before : List Cell) :
    untrack x before s = { s with store := { s.store with pendingApostrophe := none } } :=
  if_pos h

section
variable {x : Cell} {s : State} {w : WordRef} {before : List Cell}

theorem untrack_openWord_kept (h : s.store.pendingApostrophe ≠ some x.seq) (hx : x.word = some w)
    (ho : s.store.openWord = some w) (hb : ∃ c ∈ before, c.word = some w) : untrack x before s = s := by
  simp [untrack, h, hx, ho, hb]

theorem untrack_openWord_gone (h : s.store.pendingApostrophe ≠ some x.seq) (hx : x.word = some w)
    (ho : s.store.openWord = some w) (hb : ∀ c ∈ before, c.word ≠ some w) :
    untrack x before s = { s with store := { s.store with openWord := none } } := by
  have hany : before.any (fun c => c.word == x.word) = false := by simpa [hx] using hb
  unfold untrack
  rw [if_neg h, if_pos (by simp [hx, ho]), hany]
  rfl

end

/-- The removal of X touches neither the open word nor the pending apostrophe: what stands before X decides (the rows of Table 5-3 from the
third on). -/
structure OutsideWord (x : Cell) (s : State) : Prop where
  pending : s.store.pendingApostrophe ≠ some x.seq
  word : x.word = none ∨ x.word ≠ s.store.openWord

theorem OutsideWord.not_open {x : Cell} {s : State} (h : OutsideWord x s) : ¬(x.word.isSome ∧ x.word = s.store.openWord) := by
  rintro ⟨hsome, heq⟩
  obtain hnone | hne := h.word
  · simp [hnone] at hsome
  · exact hne heq

section
variable {x c d : Cell} {s : State} {w : WordRef} {rest : List Cell}

theorem OutsideWord.untrack_nil (h : OutsideWord x s) : untrack x [] s = s := by
  unfold untrack
  rw [if_neg h.pending, if_neg h.not_open]

theorem OutsideWord.untrack_letter (h : OutsideWord x s) (hc : c.word = some w) :
    untrack x (c :: rest) s
      = { reopenWord w s with store := { (reopenWord w s).store with pendingApostrophe := none } } := by
  unfold untrack
  rw [if_neg h.pending, if_neg h.not_open]
  simp only [hc]

theorem OutsideWord.untrack_apostrophe (h : OutsideWord x s) (hc : c.word = none) (hkind : c.kind = .glyph) (hcode : c.code = 39)
    (hd : d.word = some w) :
    untrack x (c :: d :: rest) s
      = { reopenWord w s with store := { (reopenWord w s).store with pendingApostrophe := some c.seq } } := by
  unfold untrack
  rw [if_neg h.pending, if_neg h.not_open]
  simp only [hc, hd, hkind, hcode, apostrophe, and_self, if_true]

theorem OutsideWord.untrack_other (h : OutsideWord x s) (hc : c.word = none)
    (hother : c.kind ≠ .glyph ∨ c.code ≠ 39 ∨ ∀ d ∈ rest.head?, d.word = none) : untrack x (c :: rest) s = s := by
  unfold untrack
  rw [if_neg h.pending, if_neg h.not_open]
  simp only [hc]
  cases rest with
  | nil => rfl
  | cons d rest =>
    cases hd : d.word with
    | none => simp only [hd]
    | some w =>
      have hnot : ¬(c.kind = .glyph ∧ c.code = apostrophe) := by
        rintro ⟨hkind, hcode⟩
        obtain h | h | h := hother
        · exact h hkind
        · exact h hcode
        · exact Option.some_ne_none w (hd.symm.trans (h d rfl))
      simp only [hd, if_neg hnot]

end

/-- No letter cell stands before X, nor one with an apostrophe behind it. -/
theorem OutsideWord.untrack_wordless {x : Cell} {s : State} (h : OutsideWord x s) {body : List Cell}
    (hc : ∀ front c, body = front ++ [c] → c.word = none)
    (hd : ∀ front d c, body = front ++ [d, c] → d.word = none ∨ c.kind ≠ .glyph ∨ c.code ≠ 39) :
    untrack x body.reverse s = s := by
  obtain rfl | ⟨front, c, rfl⟩ := List.eq_nil_or_concat body
  · exact h.untrack_nil
  rw [List.concat_eq_append] at hc hd ⊢
  rw [List.reverse_concat]
  refine h.untrack_other (hc front c rfl) ?_
  obtain rfl | ⟨front, d, rfl⟩ := List.eq_nil_or_concat front
  · simp
  · have hrow := hd front d c (by simp)
    rw [List.concat_eq_append, List.reverse_concat]
    obtain hrow | hrow | hrow := hrow
    · exact .inr (.inr fun e he => Option.some.inj he ▸ hrow)
    · exact .inl hrow
    · exact .inr (.inl hrow)

/-! ### What setting back the word tracker leaves alone (R107) -/

/-- Cells of `t` are those of `s`, each changed by `f`, which touches a cell's word, its mark and its hold reasons alone; the
sequencer is as it was. -/
structure Rewords (f : Cell → Cell) (s t : State) : Prop where
  cell : ∀ c, f c = { c with word := (f c).word, mark := (f c).mark, holds := (f c).holds }
  earlier : t.store.earlier = s.store.earlier.map (Line.mapCells f)
  openLine : t.store.openLine = s.store.openLine.mapCells f
  seq : t.seq = s.seq

theorem mapCells_id : Line.mapCells id = id := by
  funext l
  simp [Line.mapCells]

theorem Rewords.of_same {s t : State} (hearlier : t.store.earlier = s.store.earlier) (hopen : t.store.openLine = s.store.openLine)
    (hseq : t.seq = s.seq) : Rewords id s t where
  cell _ := rfl
  earlier := by rw [hearlier, mapCells_id, List.map_id]
  openLine := by rw [hopen, mapCells_id, id]
  seq := hseq

theorem rewords_reopenWord (w : WordRef) (p : Option Nat) (s : State) :
    ∃ f, Rewords f s { reopenWord w s with store := { (reopenWord w s).store with pendingApostrophe := p } } :=
  ⟨_, { cell := fun c => by dsimp only; split <;> rfl, earlier := rfl, openLine := rfl, seq := rfl }⟩

/-- What reads neither word, mark nor hold reasons of a cell reads the same. -/
theorem Rewords.map_eq {f : Cell → Cell} {s t : State} (h : Rewords f s t) {β : Type} {g : Cell → β}
    (hg : ∀ c w m k, g { c with word := w, mark := m, holds := k } = g c) (cs : List Cell) : (cs.map f).map g = cs.map g := by
  rw [List.map_map]
  exact List.map_congr_left fun c _ => by rw [Function.comp_apply, h.cell c, hg]

theorem rewords_untrack (x : Cell) (before : List Cell) (s : State) : ∃ f, Rewords f s (untrack x before s) := by
  have hsame : ∃ f, Rewords f s s := ⟨id, .of_same rfl rfl rfl⟩
  by_cases hp : s.store.pendingApostrophe = some x.seq
  · exact ⟨id, untrack_pending hp before ▸ .of_same rfl rfl rfl⟩
  by_cases hw : x.word.isSome ∧ x.word = s.store.openWord
  case pos =>
    obtain ⟨w, hx⟩ := Option.isSome_iff_exists.mp hw.1
    have ho : s.store.openWord = some w := hw.2.symm.trans hx
    by_cases hb : ∃ c ∈ before, c.word = some w
    · rwa [untrack_openWord_kept hp hx ho hb]
    · exact ⟨id, untrack_openWord_gone hp hx ho (by simpa using hb) ▸ .of_same rfl rfl rfl⟩
  case neg =>
    have hout : OutsideWord x s := ⟨hp, (Decidable.not_and_iff_or_not.mp hw).imp_left Option.not_isSome_iff_eq_none.mp⟩
    cases before with
    | nil => rwa [hout.untrack_nil]
    | cons c rest =>
      cases hc : c.word with
      | some w => exact hout.untrack_letter hc ▸ rewords_reopenWord w none s
      | none =>
        by_cases happ : c.kind = .glyph ∧ c.code = 39
        case neg => rwa [hout.untrack_other hc ((Decidable.not_and_iff_or_not.mp happ).imp_right .inl)]
        case pos =>
          cases rest with
          | nil => rwa [hout.untrack_other hc (.inr (.inr (by simp)))]
          | cons d rest =>
            cases hd : d.word with
            | none => rwa [hout.untrack_other hc (.inr (.inr (by simpa using hd)))]
            | some w => exact hout.untrack_apostrophe hc happ.1 happ.2 hd ▸ rewords_reopenWord w (some c.seq) s

/-! ### Removal of the last cell (R101, R109) -/

theorem removeLast_nil {s : State} (h : s.store.openLine.cells = []) : removeLast s = s := by
  rw [removeLast, h]
  rfl

theorem removeLast_append {s : State} {before : List Cell} {x : Cell} (h : s.store.openLine.cells = before ++ [x]) :
    removeLast s
      = { untrack x before.reverse s with
          seq := removeJob x s.seq
          store :=
            { (untrack x before.reverse s).store with openLine := dropLast x (untrack x before.reverse s).store.openLine } } := by
  obtain ⟨f, hf⟩ := rewords_untrack x before.reverse s
  rw [removeLast, h, List.reverse_append, List.reverse_singleton, List.singleton_append]
  simp only [hf.seq]

theorem dropLast_of_none {x : Cell} {l : Line} (h : l.segment = none) : dropLast x l = { l with cells := l.cells.dropLast } := by
  simp [dropLast, h]

theorem dropLast_tab {x : Cell} {l : Line} {g : Segment} (h : l.segment = some g) (hx : g.tab = x.seq) :
    dropLast x l = { l with cells := l.cells.dropLast, segment := none } := by
  simp [dropLast, h, hx]

/-- The segment without the cell of a sequence. -/
def Segment.without (n : Nat) (g : Segment) : Segment := { g with cells := g.cells.filter (· != n) }

theorem dropLast_segment {x : Cell} {l : Line} {g : Segment} (h : l.segment = some g) (hx : g.tab ≠ x.seq) :
    dropLast x l
      = { l with
          cells := l.cells.dropLast.map fun c =>
            if c.seq = g.tab then
              { c with width := startOf (g.without x.seq) (widthIn (g.without x.seq) l.cells.dropLast) - g.point }
            else c
          segment := some (g.without x.seq) } := by
  simp only [dropLast, h, if_neg hx]
  rfl

theorem seqs_dropLast (x : Cell) (l : Line) : (dropLast x l).cells.map (·.seq) = l.cells.dropLast.map (·.seq) := by
  cases h : l.segment with
  | none => rw [dropLast_of_none h]
  | some g =>
    by_cases hx : g.tab = x.seq
    · rw [dropLast_tab h hx]
    · rw [dropLast_segment h hx, List.map_map]
      exact List.map_congr_left fun c _ => by simp only [Function.comp_apply]; split <;> rfl

theorem seqs_removeLast (s : State) :
    (removeLast s).store.openLine.cells.map (·.seq) = (s.store.openLine.cells.map (·.seq)).dropLast := by
  obtain h | ⟨before, x, h⟩ := List.eq_nil_or_concat s.store.openLine.cells
  · simp [removeLast_nil h, h]
  · rw [List.concat_eq_append] at h
    obtain ⟨f, hf⟩ := rewords_untrack x before.reverse s
    rw [removeLast_append h, seqs_dropLast, hf.openLine, Line.mapCells, List.map_dropLast,
      hf.map_eq fun _ _ _ _ => rfl]

/-- The cells removed one by one are the last ones (R98). -/
theorem seqs_removeCells (n : Nat) : ∀ s : State,
    (removeCells n s).store.openLine.cells.map (·.seq)
      = (s.store.openLine.cells.map (·.seq)).take (s.store.openLine.cells.length - n) := by
  induction n with
  | zero =>
    intro s
    rw [removeCells, Nat.sub_zero, List.take_of_length_le (Nat.le_of_eq (List.length_map _))]
  | succ n ih =>
    intro s
    have hlen : (removeLast s).store.openLine.cells.length = s.store.openLine.cells.length - 1 := by
      simpa using congrArg List.length (seqs_removeLast s)
    rw [removeCells, ih, hlen, seqs_removeLast, List.dropLast_eq_take, List.take_take, List.length_map]
    congr 1
    omega

/-! ### The statement on one removal -/

/-- Settles O26: the job by the rows of Table 5-1, the tracker by the rows of Table 5-3, the word by R108, the segment by R109. -/
theorem removalDealsWithTheJob : Obligations.RemovalDealsWithTheJob := by
  unfold Obligations.RemovalDealsWithTheJob
  refine ⟨fun x q => ⟨?free, ?held, ?unmade, ?made, ?queued, ?striking⟩, fun x before s done hcells hdone => ?tracker,
    fun w v hold s hv hhold => ?reopened, fun x before l hl => ?segment⟩
  case free => exact fun h => removeJob_of_free (removalOf_of_not_strikes h)
  case held => exact fun hs h => removeJob_of_free (removalOf_held hs h)
  case unmade =>
    intro hs h hmade
    refine removeJob_of_free ?_
    rw [removalOf_printed hs h, if_neg (by simpa using hmade)]
  case made =>
    intro hs h hmade
    refine removeJob_of_lift ?_
    rw [removalOf_printed hs h, if_pos (by simpa using hmade)]
  case queued =>
    intro hs h hq
    refine removeJob_of_withdraw ?_
    rw [removalOf_queued hs h, hq]
    rfl
  case striking =>
    rintro hs (h | ⟨h, hq⟩)
    · exact removeJob_of_detach (removalOf_striking hs h)
    · refine removeJob_of_detach ?_
      rw [removalOf_queued hs h, hq]
      rfl
  case tracker =>
    have hlast : removeLast s = done (untrack x before.reverse s) := (removeLast_append hcells).trans (hdone _).symm
    rw [hlast]
    refine ⟨fun hp => ?_, fun hp => ⟨fun w hx ho => ⟨fun hb => ?_, fun hb => ?_⟩, fun hw => ?_⟩⟩
    · rw [untrack_pending hp]
    · rw [untrack_openWord_kept hp hx ho (by simpa using hb)]
    · rw [untrack_openWord_gone hp hx ho (by simpa using hb)]
    · have hout : OutsideWord x s := ⟨hp, hw⟩
      refine ⟨?_, ?_, ?_, ?_⟩
      · rintro rfl
        rw [List.reverse_nil, hout.untrack_nil]
      · rintro front c w rfl hc
        refine ⟨_, rfl, ?_⟩
        rw [List.reverse_concat, hout.untrack_letter hc]
      · rintro front d c w rfl hc hkind hcode hd
        refine ⟨_, rfl, ?_⟩
        rw [List.reverse_append]
        exact congrArg done (hout.untrack_apostrophe hc hkind hcode hd)
      · rintro front c rfl hc hother
        rw [List.reverse_concat, hout.untrack_other hc]
        refine hother.imp_right (Or.imp_right ?_)
        rintro (rfl | ⟨d, hfront, hd⟩)
        · simp
        · simpa [hfront] using hd
  case reopened =>
    subst hv hhold
    rw [reopenWord_eq, withdrawWord_eq]
    rfl
  case segment =>
    have hbefore : l.cells.dropLast = before := by rw [hl, List.dropLast_concat]
    refine ⟨fun hg => ?_, fun g hg => ⟨fun htab => ?_, ?_⟩⟩
    · rw [dropLast_of_none hg, hbefore]
    · rw [dropLast_tab hg htab, hbefore]
    · rintro h rfl htab
      rw [dropLast_segment hg htab, hbefore]
      rfl

/-! ### The erasing requests (R98, R106, R110 to R112) -/

/-- The job places that the removal of the last `n` cells needs (R106, R112). -/
def placesNeeded (n : Nat) (s : State) : Nat :=
  (s.store.openLine.cells.drop (s.store.openLine.cells.length - n)).countP (needsPlace s.seq)

theorem eraseLast_zero (kind tag : Byte) (s : State) : eraseLast kind tag 0 s = answer (refuseFrame kind tag .nothing) s := rfl

theorem eraseLast_full {n : Nat} {s : State} (hn : n ≠ 0) (h : 256 < s.seq.jobs.length + placesNeeded n s) (kind tag : Byte) :
    eraseLast kind tag n s = correctionFull kind tag s :=
  (if_neg hn).trans (if_pos h)

theorem eraseLast_fits {n : Nat} {s : State} (hn : n ≠ 0) (h : s.seq.jobs.length + placesNeeded n s ≤ 256) (kind tag : Byte) :
    eraseLast kind tag n s
      = answer
          (replyFrame kind tag (correctionReply n (placesNeeded n s) false false (eventEnd s.store.unprinted (removeCells n s))))
          (eventEnd s.store.unprinted (removeCells n s)) :=
  (if_neg hn).trans (if_neg (Nat.not_lt.mpr h))

theorem doCorrect_of_cells {s : State} (h : s.store.openLine.cells ≠ []) (tag : Byte) : doCorrect tag s = eraseLast 0x04 tag 1 s :=
  if_neg (by simpa using h)

theorem doCorrect_of_empty {s : State} (h : s.store.openLine.cells = []) (tag : Byte) : doCorrect tag s = correctAcross tag s :=
  if_pos (by simp [h])

theorem Taken.exec_correct {s : State} (h : Taken s) (tag : Byte) :
    exec (.correct tag) s = .next (doCorrect tag (atBlock tag .correct s)) :=
  congrArg Host.Outcome.next (hostRequest_taken h tag _)

theorem Taken.exec_correct_of_empty {s : State} (h : Taken s) (hempty : s.store.openLine.cells = []) (tag : Byte) :
    exec (.correct tag) s = .next (correctAcross tag (atBlock tag .correct s)) :=
  (h.exec_correct tag).trans (congrArg _ (doCorrect_of_empty (s := atBlock tag .correct s) hempty tag))

theorem Taken.exec_wordErase {s : State} (h : Taken s) (tag : Byte) :
    exec (.wordErase tag) s
      = .next (eraseLast 0x05 tag (wordEraseCount s.store.openLine.cells.reverse) (atBlock tag .wordErase s)) :=
  congrArg Host.Outcome.next (hostRequest_taken h tag _)

theorem Taken.exec_lineErase {s : State} (h : Taken s) (tag : Byte) :
    exec (.lineErase tag) s = .next (eraseLast 0x06 tag s.store.openLine.cells.length (atBlock tag .lineErase s)) :=
  congrArg Host.Outcome.next (hostRequest_taken h tag _)

/-- CORRECT, WORD-ERASE and LINE-ERASE on a line with cells differ in their kind and in how many cells they take, which is at least one. -/
theorem Taken.exec_erase {s : State} (h : Taken s) (hcells : s.store.openLine.cells ≠ []) {tag : Byte} {c : Instr} {rq : Request}
    {n : Nat}
    (hrow : c = .correct tag ∧ rq = .correct ∧ n = 1
      ∨ c = .wordErase tag ∧ rq = .wordErase ∧ n = wordEraseCount s.store.openLine.cells.reverse
      ∨ c = .lineErase tag ∧ rq = .lineErase ∧ n = s.store.openLine.cells.length) :
    n ≠ 0 ∧ exec c s = .next (eraseLast rq.kind tag n (atBlock tag rq s)) := by
  obtain ⟨rfl, rfl, rfl⟩ | ⟨rfl, rfl, rfl⟩ | ⟨rfl, rfl, rfl⟩ := hrow
  · refine ⟨Nat.one_ne_zero, ?_⟩
    rw [h.exec_correct, doCorrect_of_cells (s := atBlock tag .correct s) hcells]
    rfl
  · exact ⟨Nat.ne_of_gt (wordEraseCount_pos (by simpa using hcells)), h.exec_wordErase tag⟩
  · exact ⟨by simpa using hcells, h.exec_lineErase tag⟩

/-- Settles O25: the three requests are one erasure by their kind and count, which is judged by the places its cells need. -/
theorem correctionIsWholeOrRefused : Obligations.CorrectionIsWholeOrRefused := by
  unfold Obligations.CorrectionIsWholeOrRefused
  refine ⟨fun tag c rq n s hs hrow hcells places hplaces => ?erase, fun tag s hs hempty => ⟨?noWord, ?noLine⟩,
    seqs_removeCells⟩
  case erase =>
    obtain ⟨hn, hexec⟩ := hs.exec_erase hcells hrow
    obtain rfl : places = placesNeeded n (atBlock tag rq s) := hplaces
    refine ⟨fun hfits => ⟨_, rfl, ?_⟩, fun hfull => ?_⟩
    · rw [hexec, eraseLast_fits (s := atBlock tag rq s) hn hfits]
      rfl
    · rw [hexec, eraseLast_full (s := atBlock tag rq s) hn hfull]
      rfl
  case noWord =>
    rw [hs.exec_wordErase, hempty]
    exact congrArg _ ((eraseLast_zero _ tag _).trans (answer_atBlock hs.hand _ tag _))
  case noLine =>
    rw [hs.exec_lineErase, hempty]
    exact congrArg _ ((eraseLast_zero _ tag _).trans (answer_atBlock hs.hand _ tag _))

end Sys2Proof.Machine
end

section
/-! PROOFS. Crossing back into the line before (R100, R113 to R117): the job of the return crossed, cells placed behind the released ones,
the line reopened, and the word tracker before its return; then O27. -/

namespace Sys2Proof.Machine

/-! ### The job of the return crossed (R114 to R116, R78) -/

theorem crossNeedsPlace_iff (q : Sequencer) (r : Cell) :
    crossNeedsPlace q r = true ↔ r.state = .printed ∨ feedInFlight q r.seq = true := by
  simp [crossNeedsPlace]

/-- The FEED in flight is a job of the queue. -/
theorem feedOf_of_feedInFlight {q : Sequencer} {n : Nat} (h : feedInFlight q n = true) : ∃ j ∈ q.jobs, feedOf n j.kind = true := by
  obtain ⟨_, hhead⟩ := Bool.and_eq_true_iff.mp h
  split at hhead
  next hjobs => exact ⟨_, hjobs ▸ List.mem_cons_self, by simpa [feedOf] using hhead⟩
  next => cases hhead

theorem removeFeed_of_inFlight {r : Cell} {q : Sequencer} (h : feedInFlight q r.seq = true) :
    removeFeed r q = { q with jobs := q.jobs.map (unlinked r.seq) } := by
  refine (if_pos h).trans (congrArg (fun js => { q with jobs := js }) (List.map_congr_left fun ⟨kind, marked⟩ _ => ?_))
  cases kind with
  | feed d n link k => cases link <;> rfl
  | strike | lift | cross => rfl

theorem removeFeed_of_waiting {r : Cell} {q : Sequencer} (h : feedInFlight q r.seq = false) :
    removeFeed r q = { q with jobs := q.jobs.filter fun j => !feedOf r.seq j.kind } := by
  refine (if_neg (by simp [h])).trans (congrArg (fun js => { q with jobs := js }) (List.filter_congr fun ⟨kind, marked⟩ _ => ?_))
  cases kind with
  | feed d n link k => cases link <;> rfl
  | strike | lift | cross => rfl

theorem feedInFlight_eq_false {q : Sequencer} {n : Nat} (h : ∀ j ∈ q.jobs, feedOf n j.kind = false) : feedInFlight q n = false := by
  rw [Bool.eq_false_iff]
  intro hf
  obtain ⟨j, hj, hfeed⟩ := feedOf_of_feedInFlight hf
  simp [h j hj] at hfeed

theorem removeFeed_of_none {r : Cell} {q : Sequencer} (h : ∀ j ∈ q.jobs, feedOf r.seq j.kind = false) : removeFeed r q = q := by
  rw [removeFeed_of_waiting (feedInFlight_eq_false h), List.filter_eq_self.mpr (by simpa using h)]

/-! ### Cells placed edge to edge, and those left where they are -/

/-- What does not read a cell's position reads the same of the cells placed. -/
theorem map_placeFrom {β : Type} {g : Cell → β} (hg : ∀ c p, g { c with position := p } = g c) (p : Cell → Bool) (cs : List Cell) :
    ∀ e, (placeFrom p e cs).map g = cs.map g := by
  induction cs with
  | nil => intro e; rfl
  | cons c cs ih =>
    intro e
    rw [placeFrom]
    split
    · rw [List.map_cons, List.map_cons, ih, hg]
    · rw [List.map_cons, List.map_cons, ih]

theorem placeFrom_getElem?_of_not {p : Cell → Bool} {cs : List Cell} {c : Cell} (hp : p c = false) : ∀ {i : Nat},
    cs[i]? = some c → ∀ e, (placeFrom p e cs)[i]? = some c := by
  induction cs with
  | nil => intro i hc; simp at hc
  | cons x xs ih =>
    intro i hc e
    cases i with
    | zero =>
      obtain rfl : x = c := by simpa using hc
      simp [placeFrom, hp]
    | succ i =>
      rw [placeFrom]
      split
      · exact ih (by simpa using hc) _
      · exact ih (by simpa using hc) _

/-- A row placed behind a cell that is left where it is: what of the cells before it was placed comes first. -/
theorem placeFrom_behind {p : Cell → Bool} {pre post : List Cell} {y x : Cell} {i : Nat} (hy : p y = false)
    (hpost : ∀ c ∈ post, p c = true) (hx : post[i]? = some x) (e : Nat) :
    (placeFrom p e (pre ++ y :: post))[pre.length + 1 + i]?
      = some { x with position := some (e + cellsWidth (pre.filter p ++ post.take i)) } := by
  have hplaced := placeFrom_getElem? p post hpost (e + cellsWidth (pre.filter p)) i x hx
  have hwidth : cellsWidth (pre.filter p ++ post.take i) = cellsWidth (pre.filter p) + cellsWidth (post.take i) := by
    simp [cellsWidth]
  rw [placeFrom_append, List.getElem?_append_right (by rw [length_placeFrom]; omega), length_placeFrom, placeFrom, if_neg (by simp [hy]),
    show pre.length + 1 + i - pre.length = i + 1 by omega, List.getElem?_cons_succ, hplaced, hwidth, Nat.add_assoc]

/-! ### The line reopened (R114, R117) -/

/-- The line open again without its return, its placement record and its segment. -/
def Line.withoutReturn (l : Line) : Line :=
  { l with state := .opened, reach := false, cells := l.cells.dropLast, placement := none, segment := none }

section
variable {l : Line} {b : Bool}

theorem reopenedLine_flushLeft (h : l.alignment = .flushLeft) : reopenedLine l b = l.withoutReturn :=
  if_pos h

theorem reopenedLine_released (h : l.alignment ≠ .flushLeft) (hr : ∃ c ∈ l.cells.dropLast, c.state ≠ .held) :
    reopenedLine l b
      = { l.withoutReturn with
          alignment := .flushLeft
          cells := placeFrom (fun c => c.state == .held) ({ l with cells := l.cells.dropLast } : Line).releasedEnd l.cells.dropLast } :=
  (if_neg h).trans (if_pos (by simpa using hr))

theorem reopenedLine_held (h : l.alignment ≠ .flushLeft) (hh : ∀ c ∈ l.cells.dropLast, c.state = .held) :
    reopenedLine l b
      = if b then
          { l.withoutReturn with
            cells := l.cells.dropLast.map fun c => { c with position := none, holds := { c.holds with line := true } } }
        else l.withoutReturn :=
  (if_neg h).trans (if_neg (by simpa using hh))

/-- The three outcomes of a crossing for the line. -/
theorem reopenedLine_cases (l : Line) (b : Bool) :
    reopenedLine l b = l.withoutReturn
    ∨ (∃ e, reopenedLine l b
        = { l.withoutReturn with
            alignment := .flushLeft, cells := placeFrom (fun c => c.state == .held) e l.cells.dropLast })
    ∨ reopenedLine l b
        = { l.withoutReturn with
            cells := l.cells.dropLast.map fun c => { c with position := none, holds := { c.holds with line := true } } } := by
  by_cases h : l.alignment = .flushLeft
  · exact .inl (reopenedLine_flushLeft h)
  by_cases hr : ∃ c ∈ l.cells.dropLast, c.state ≠ .held
  · exact .inr (.inl ⟨_, reopenedLine_released h hr⟩)
  · have hheld := reopenedLine_held (b := b) h (by simpa using hr)
    cases b with
    | true => exact .inr (.inr hheld)
    | false => exact .inl hheld

/-- Reopening a line touches nothing else of it than its state, its reach flag, its records, its alignment and its cells. -/
theorem reopenedLine_eq (l : Line) (b : Bool) :
    reopenedLine l b
      = { l.withoutReturn with alignment := (reopenedLine l b).alignment, cells := (reopenedLine l b).cells } := by
  obtain h | ⟨e, h⟩ | h := reopenedLine_cases l b <;> rw [h]

/-- Of its cells it touches the positions and the hold reasons. -/
theorem map_cells_reopenedLine {β : Type} {g : Cell → β} (hg : ∀ c p k, g { c with position := p, holds := k } = g c) (l : Line)
    (b : Bool) : (reopenedLine l b).cells.map g = l.cells.dropLast.map g := by
  obtain h | ⟨e, h⟩ | h := reopenedLine_cases l b <;> rw [h]
  case inl => rfl
  case inr.inl => exact map_placeFrom (fun c p => hg c p c.holds) _ _ _
  case inr.inr =>
    rw [List.map_map]
    exact List.map_congr_left fun c _ => hg c _ _

/-- A HELD cell behind the last released one stands edge to edge from that cell's end, its gap extra counted (R117, log 18). -/
theorem reopenedLine_position {pre post : List Cell} {x y : Cell} {i : Nat} (h : l.alignment ≠ .flushLeft)
    (hl : l.cells.dropLast = pre ++ y :: post) (hy : y.state ≠ .held) (hret : y.isReturn = false) (hpost : ∀ c ∈ post, c.state = .held)
    (hx : post[i]? = some x) :
    ((reopenedLine l b).cells[pre.length + 1 + i]?).map (·.position)
      = some (some (y.position.getD l.left + y.width + gapExtra { l with cells := pre ++ y :: post } pre.length
          + cellsWidth ((pre.filter fun z => z.state == .held) ++ post.take i))) := by
  have hend := releasedEnd_eq { l with cells := pre ++ y :: post } pre post y rfl hy hret hpost
  rw [reopenedLine_released h ⟨y, by simp [hl], hy⟩, hl, hend]
  exact congrArg (Option.map (·.position))
    (placeFrom_behind (p := fun c => c.state == .held) (by simpa using hy) (by simpa using hpost) hx _)

end

/-! ### What layout reads of a cell, the word tracker leaves alone -/

section
variable {f : Cell → Cell}

theorem interiorSpace_map (hf : ∀ c, (f c).kind = c.kind) (cs : List Cell) (i : Nat) :
    interiorSpace (cs.map f) i = interiorSpace cs i := by
  simp only [interiorSpace, ← List.map_take, ← List.map_drop, List.getElem?_map, Option.any_map, List.any_map, Function.comp_def, hf]

theorem gapExtra_map (hf : ∀ c, (f c).kind = c.kind) (l : Line) (cs : List Cell) (i : Nat) :
    gapExtra { l with cells := cs.map f } i = gapExtra { l with cells := cs } i := by
  simp only [gapExtra, gapsBefore, interiorSpace_map hf, funext (interiorSpace_map hf cs)]

theorem cellsWidth_map (hf : ∀ c, (f c).width = c.width) (cs : List Cell) : cellsWidth (cs.map f) = cellsWidth cs := by
  simp only [cellsWidth, List.map_map, Function.comp_def, hf]

theorem filter_held_map (hf : ∀ c, (f c).state = c.state) (cs : List Cell) :
    (cs.map f).filter (fun c => c.state == .held) = (cs.filter fun c => c.state == .held).map f := by
  simp only [List.filter_map, Function.comp_def, hf]

end

section
variable {f : Cell → Cell} {s t : State}

theorem Rewords.kind (h : Rewords f s t) (c : Cell) : (f c).kind = c.kind := by rw [h.cell c]
theorem Rewords.state (h : Rewords f s t) (c : Cell) : (f c).state = c.state := by rw [h.cell c]
theorem Rewords.width (h : Rewords f s t) (c : Cell) : (f c).width = c.width := by rw [h.cell c]
theorem Rewords.position (h : Rewords f s t) (c : Cell) : (f c).position = c.position := by rw [h.cell c]

end

/-! ### Crossing back (R113) -/

/-- The line before is the OPEN line, its return still in it, and no line is reachable. -/
def crossOpened (l : Line) (s : State) : State :=
  { s with
    store := { s.store with earlier := s.store.earlier.dropLast.map fun x => { x with reach := false }, openLine := l } }

/-- The word tracker set back for the removal of the return (R107). -/
def crossTracked (l : Line) (r : Cell) (s : State) : State := untrack r l.cells.dropLast.reverse (crossOpened l s)

/-- The OPEN line of a crossing: the line reopened, the words of its cells set back. -/
theorem crossBack_line (l : Line) (r : Cell) (s : State) :
    ∃ f, Rewords f (crossOpened l s) (crossTracked l r s)
      ∧ (crossBack l r s).store.openLine = reopenedLine (l.mapCells f) (r.state == .held) := by
  obtain ⟨f, hf⟩ := rewords_untrack r l.cells.dropLast.reverse (crossOpened l s)
  exact ⟨f, hf, congrArg (reopenedLine · (r.state == .held)) hf.openLine⟩

/-- Beside its alignment and its cells it is the line without its return. -/
theorem crossBack_openLine (l : Line) (r : Cell) (s : State) :
    (crossBack l r s).store.openLine
      = { l.withoutReturn with
          alignment := (crossBack l r s).store.openLine.alignment, cells := (crossBack l r s).store.openLine.cells } := by
  obtain ⟨f, _, hline⟩ := crossBack_line l r s
  rw [hline]
  exact reopenedLine_eq (l.mapCells f) _

/-- The CROSS to the typing point of the line reopened (R116). -/
def crossJob (spacing : Nat) (l : Line) : Job := { kind := .cross spacing l.typingPoint 0 0, marked := false }

theorem crossBack_seq (l : Line) (r : Cell) (s : State) :
    (crossBack l r s).seq
      = if crossNeedsPlace s.seq r then
          { removeFeed r s.seq with jobs := (removeFeed r s.seq).jobs ++ [crossJob l.spacing (crossBack l r s).store.openLine] }
        else removeFeed r s.seq := by
  obtain ⟨f, hf, _⟩ := crossBack_line l r s
  have hfeed : removeFeed r (crossTracked l r s).seq = removeFeed r s.seq := congrArg (removeFeed r) hf.seq
  have hspacing : l.spacing = (crossBack l r s).store.openLine.spacing := (congrArg Line.spacing (crossBack_openLine l r s) :).symm
  rw [← hfeed, hspacing]
  rfl

theorem crossBack_seq_inFlight {l : Line} {r : Cell} {s : State} (h : feedInFlight s.seq r.seq = true) :
    (crossBack l r s).seq
      = { s.seq with jobs := s.seq.jobs.map (unlinked r.seq) ++ [crossJob l.spacing (crossBack l r s).store.openLine] } := by
  rw [crossBack_seq, if_pos ((crossNeedsPlace_iff _ _).mpr (.inr h)), removeFeed_of_inFlight h]

theorem crossBack_seq_waiting {l : Line} {r : Cell} {s : State} (h : feedInFlight s.seq r.seq = false) (hr : r.state ≠ .printed) :
    (crossBack l r s).seq = { s.seq with jobs := s.seq.jobs.filter fun j => !feedOf r.seq j.kind } := by
  rw [crossBack_seq, if_neg (by simp [crossNeedsPlace_iff, h, hr]), removeFeed_of_waiting h]

theorem crossBack_seq_printed {l : Line} {r : Cell} {s : State} (h : feedInFlight s.seq r.seq = false) (hr : r.state = .printed) :
    (crossBack l r s).seq
      = { s.seq with
          jobs := (s.seq.jobs.filter fun j => !feedOf r.seq j.kind) ++ [crossJob l.spacing (crossBack l r s).store.openLine] } := by
  rw [crossBack_seq, if_pos ((crossNeedsPlace_iff _ _).mpr (.inl hr)), removeFeed_of_waiting h]

theorem crossBack_seq_held {l : Line} {r : Cell} {s : State} (h : ∀ j ∈ s.seq.jobs, feedOf r.seq j.kind = false)
    (hr : r.state = .held) : (crossBack l r s).seq = s.seq := by
  have hwaits : ¬crossNeedsPlace s.seq r = true := by simp [crossNeedsPlace_iff, feedInFlight_eq_false h, hr]
  rw [crossBack_seq, if_neg hwaits, removeFeed_of_none h]

section
variable {l : Line} {r : Cell} {s : State} {body : List Cell}

theorem crossTarget_eq_none (h : s.store.earlier = [] ∨ ∃ ls l, s.store.earlier = ls ++ [l] ∧ l.reach = false) :
    crossTarget s.store = none := by
  obtain h | ⟨ls, l, h, hreach⟩ := h
  · simp [crossTarget, h]
  · simp [crossTarget, h, hreach]

theorem crossTarget_eq_some {ls : List Line} (h : s.store.earlier = ls ++ [l]) (hreach : l.reach = true)
    (hl : l.cells = body ++ [r]) : crossTarget s.store = some (l, r) := by
  simp [crossTarget, h, hreach, hl]

theorem correctAcross_nothing (h : crossTarget s.store = none) (tag : Byte) :
    correctAcross tag s = answer (refuseFrame 0x04 tag .nothing) s := by
  rw [correctAcross, h]

theorem correctAcross_full (h : crossTarget s.store = some (l, r)) (hc : crossNeedsPlace s.seq r = true)
    (hj : 256 ≤ s.seq.jobs.length) (tag : Byte) : correctAcross tag s = correctionFull 0x04 tag s := by
  rw [correctAcross, h]
  exact if_pos (by simp [hc, Config.maxJobs, hj])

theorem correctAcross_crosses (h : crossTarget s.store = some (l, r))
    (hj : ¬(crossNeedsPlace s.seq r = true ∧ 256 ≤ s.seq.jobs.length)) (tag : Byte) :
    correctAcross tag s
      = answer
          (replyFrame 0x04 tag
            (correctionReply 1 0 (crossNeedsPlace s.seq r) true (eventEnd s.store.unprinted (crossBack l r s))))
          (eventEnd s.store.unprinted (crossBack l r s)) := by
  rw [correctAcross, h]
  exact if_neg (by simpa [Config.maxJobs] using hj)

end

/-! ### The line crossed into (R113, R114, R117) -/

section
variable {l : Line} {body : List Cell} {r : Cell} (hl : l.cells = body ++ [r])
include hl

theorem mapCells_dropLast (f : Cell → Cell) : (l.mapCells f).cells.dropLast = body.map f := by
  rw [Line.mapCells, hl, ← List.map_dropLast, List.dropLast_concat]

theorem crossBack_seqs (s : State) : (crossBack l r s).store.openLine.cells.map (·.seq) = body.map (·.seq) := by
  obtain ⟨f, hf, hline⟩ := crossBack_line l r s
  rw [hline, map_cells_reopenedLine fun _ _ _ => rfl, mapCells_dropLast hl, hf.map_eq fun _ _ _ _ => rfl]

theorem crossBack_flushLeft (s : State) (h : l.alignment = .flushLeft) :
    (crossBack l r s).store.openLine.alignment = .flushLeft
      ∧ (crossBack l r s).store.openLine.cells.map (fun c => (c.position, c.state)) = body.map fun c => (c.position, c.state) := by
  obtain ⟨f, hf, hline⟩ := crossBack_line l r s
  rw [hline, reopenedLine_flushLeft (l := l.mapCells f) h, Line.withoutReturn, mapCells_dropLast hl]
  exact ⟨h, hf.map_eq (fun _ _ _ _ => rfl) body⟩

/-- The released cells stay where they are. -/
theorem crossBack_released (s : State) (h : l.alignment ≠ .flushLeft) (hr : ∃ c ∈ body, c.state ≠ .held) :
    (crossBack l r s).store.openLine.alignment = .flushLeft
      ∧ ∀ (i : Nat) (c : Cell), body[i]? = some c → c.state ≠ .held →
          ((crossBack l r s).store.openLine.cells[i]?).map (·.position) = some c.position := by
  obtain ⟨f, hf, hline⟩ := crossBack_line l r s
  have hbody := mapCells_dropLast hl f
  have hreleased : ∃ c ∈ (l.mapCells f).cells.dropLast, c.state ≠ .held := by
    obtain ⟨c, hc, hne⟩ := hr
    exact ⟨f c, hbody ▸ List.mem_map.mpr ⟨c, hc, rfl⟩, by rwa [hf.state]⟩
  rw [hline, reopenedLine_released (l := l.mapCells f) h hreleased, hbody]
  refine ⟨rfl, fun i c hc hne => ?_⟩
  have hfc : (body.map f)[i]? = some (f c) := by rw [List.getElem?_map, hc]; rfl
  have hkept := placeFrom_getElem?_of_not (p := fun c => c.state == .held) (by simpa [hf.state] using hne) hfc
  exact (congrArg (Option.map (·.position)) (hkept _)).trans (congrArg some (hf.position c))

/-- With its return HELD a line waits for its close again; with its return released it stays as it was placed. -/
theorem crossBack_allHeld (s : State) (h : l.alignment ≠ .flushLeft) (hh : ∀ c ∈ body, c.state = .held) :
    (crossBack l r s).store.openLine.alignment = l.alignment
      ∧ (r.state = .held → ∀ c ∈ (crossBack l r s).store.openLine.cells, c.position = none ∧ c.holds.line = true) := by
  obtain ⟨f, hf, hline⟩ := crossBack_line l r s
  have hbody := mapCells_dropLast hl f
  rw [hline, reopenedLine_held (l := l.mapCells f) h (by simpa [hbody, hf.state] using hh), hbody]
  refine ⟨by split <;> rfl, fun hr => ?_⟩
  simp [hr]

/-- The HELD cells behind the last released one (R117, log 18). -/
theorem crossBack_held_position (s : State) {pre post : List Cell} {x y : Cell} {i : Nat} (h : l.alignment ≠ .flushLeft)
    (hb : body = pre ++ y :: post) (hy : y.state ≠ .held) (hret : y.isReturn = false) (hpost : ∀ c ∈ post, c.state = .held)
    (hx : post[i]? = some x) :
    ((crossBack l r s).store.openLine.cells[pre.length + 1 + i]?).map (·.position)
      = some (some (y.position.getD l.left + y.width + gapExtra { l with cells := body } pre.length
          + cellsWidth ((pre.filter fun z => z.state == .held) ++ post.take i))) := by
  obtain ⟨f, hf, hline⟩ := crossBack_line l r s
  subst hb
  have hbody := mapCells_dropLast hl f
  rw [List.map_append, List.map_cons] at hbody
  have hplaced := reopenedLine_position (l := l.mapCells f) (b := r.state == .held) h hbody (by rwa [hf.state])
    (by rwa [Cell.isReturn, hf.kind]) (by simpa [hf.state] using hpost) (by rw [List.getElem?_map, hx]; rfl)
  rw [← hline, ← List.map_cons, ← List.map_append, ← List.map_take, filter_held_map hf.state, ← List.map_append,
    cellsWidth_map hf.width, hf.position, hf.width, List.length_map, gapExtra_map hf.kind] at hplaced
  exact hplaced

end

theorem crossBack_earlier {s : State} {ls : List Line} {l : Line} (h : s.store.earlier = ls ++ [l]) (r : Cell) :
    (∀ x ∈ (crossBack l r s).store.earlier, x.reach = false) ∧ (crossBack l r s).store.earlier.length = ls.length := by
  obtain ⟨f, hf, _⟩ := crossBack_line l r s
  have hlines : (crossBack l r s).store.earlier = (ls.map fun x => { x with reach := false }).map (Line.mapCells f) := by
    have h' := hf.earlier
    rwa [crossOpened, h, List.dropLast_concat] at h'
  simp [hlines, Line.mapCells]

/-- Reopening the line touches neither the open word, the pending apostrophe nor the words of its cells. -/
theorem words_crossBack (l : Line) (r : Cell) (s : State) :
    (crossBack l r s).spell = (crossTracked l r s).spell
      ∧ (crossBack l r s).store.openWord = (crossTracked l r s).store.openWord
      ∧ (crossBack l r s).store.pendingApostrophe = (crossTracked l r s).store.pendingApostrophe
      ∧ (crossBack l r s).store.openLine.cells.map (fun c => (c.word, c.mark))
        = (crossTracked l r s).store.openLine.cells.dropLast.map fun c => (c.word, c.mark) :=
  ⟨rfl, rfl, rfl, map_cells_reopenedLine (fun _ _ _ => rfl) _ _⟩

/-! ### The statement -/

/-- Settles O27: the answer from the job the return needs, the line from how much of it was released, the tracker from the rows of
Table 5-3. -/
theorem correctCrossesBack : Obligations.CorrectCrossesBack := by
  unfold Obligations.CorrectCrossesBack
  refine ⟨fun tag s hs hempty => ⟨fun hnone => ?nothing, fun ls l body r hearlier hreach hl => ⟨fun hc hj => ?full,
    fun hfits => ?crosses⟩⟩, ?line, ?held, ?tracker⟩
  case nothing =>
    rw [hs.exec_correct_of_empty hempty, correctAcross_nothing (crossTarget_eq_none (s := atBlock tag .correct s) hnone)]
    exact congrArg _ (answer_atBlock hs.hand _ tag _)
  case full =>
    rw [hs.exec_correct_of_empty hempty,
      correctAcross_full (crossTarget_eq_some (s := atBlock tag .correct s) hearlier hreach hl)
        ((crossNeedsPlace_iff _ _).mpr hc) hj]
    rfl
  case crosses =>
    rw [← crossNeedsPlace_iff] at hfits
    have hflags : BitVec.ofNat 8 ((crossNeedsPlace s.seq r).toNat + 2 * true.toNat)
        = if r.state = .printed ∨ feedInFlight s.seq r.seq = true then 3 else 2 := by
      simp only [← crossNeedsPlace_iff]
      cases crossNeedsPlace s.seq r <;> rfl
    refine ⟨_, rfl, ?_⟩
    rw [hs.exec_correct_of_empty hempty,
      correctAcross_crosses (crossTarget_eq_some (s := atBlock tag .correct s) hearlier hreach hl) hfits, ← hflags]
    rfl
  case line =>
    rintro s ls l body r hearlier hl t cross rfl rfl
    have hline := crossBack_openLine l r s
    obtain ⟨hreach, hcount⟩ := crossBack_earlier hearlier r
    exact ⟨(congrArg Line.state hline :), (congrArg Line.reach hline :), (congrArg Line.segment hline :),
      (congrArg Line.placement hline :), crossBack_seqs hl s, (congrArg Line.left hline :), (congrArg Line.right hline :),
      (congrArg Line.spacing hline :), (congrArg Line.bellRung hline :), hreach, hcount, rfl, crossBack_seq_inFlight,
      crossBack_seq_waiting, crossBack_seq_printed, fun hr h => crossBack_seq_held h hr, crossBack_flushLeft hl s,
      crossBack_released hl s, crossBack_allHeld hl s⟩
  case held =>
    rintro s t l body pre post r y hl - rfl halign hbody hy hret hpost i x hx
    exact crossBack_held_position hl s halign hbody hy hret hpost hx
  case tracker =>
    rintro s base t u ls l body r hearlier hl rfl hbase hword hpending hrow
    have hopened : base = crossOpened l s := by rw [hbase, crossOpened, hearlier, List.dropLast_concat]
    have hout : OutsideWord r base := by
      subst hbase
      exact ⟨hpending, .inl hword⟩
    have hu : u = crossTracked l r s := by
      rw [crossTracked, ← hopened, hl, List.dropLast_concat]
      obtain ⟨front, c, w, v, rfl, hc, rfl, rfl⟩ | ⟨front, d, w, c, v, rfl, hc, hkind, hcode, hd, rfl, rfl⟩ | ⟨rfl, hc, hd⟩ :=
        hrow
      · rw [List.reverse_concat, hout.untrack_letter hc]
      · rw [List.reverse_append]
        exact (hout.untrack_apostrophe hc hkind hcode hd).symm
      · exact (hout.untrack_wordless hc hd).symm
    rw [hu]
    exact words_crossBack l r s

end Sys2Proof.Machine
end

section
/-! PROOFS. The user's decisions on words (R133 to R136): the sorted user list, a flagged word accepted or added, a word of the list
deleted or read; then O29 and O30. -/

namespace Sys2Proof.Machine

/-! ### The sorted user list (R135a) -/

/-- Of two different words that are not in order, the other order holds. -/
theorem wordLess_of_not_wordLess {v w : List Nat} (hne : v ≠ w) (h : ¬ wordLess v w = true) : wordLess w v = true := by
  induction v generalizing w with
  | nil =>
    cases w with
    | nil => exact absurd rfl hne
    | cons b bs => exact absurd rfl h
  | cons a as ih =>
    cases w with
    | nil => rfl
    | cons b bs =>
      simp only [wordLess, Bool.or_eq_true, Bool.and_eq_true, decide_eq_true_eq, not_or, not_and] at h ⊢
      obtain hlt | rfl := Nat.lt_or_eq_of_le (Nat.le_of_not_lt h.1)
      · exact .inl hlt
      · exact .inr ⟨rfl, ih (fun e => hne (e ▸ rfl)) (h.2 rfl)⟩

theorem mem_insertWord {w x : List Nat} {ws : List (List Nat)} : x ∈ insertWord w ws ↔ x = w ∨ x ∈ ws := by
  induction ws with
  | nil => exact List.mem_cons
  | cons y ys ih =>
    rw [insertWord]
    split
    · exact List.mem_cons
    · rw [List.mem_cons, List.mem_cons, ih]
      exact or_left_comm

theorem length_insertWord (w : List Nat) (ws : List (List Nat)) : (insertWord w ws).length = ws.length + 1 := by
  induction ws with
  | nil => rfl
  | cons x xs ih =>
    rw [insertWord]
    split
    · rfl
    · rw [List.length_cons, ih, List.length_cons]

/-- The first word after an insertion is the word inserted or the first word before it. -/
theorem head?_insertWord (w : List Nat) (ws : List (List Nat)) :
    (insertWord w ws).head? = some w ∨ (insertWord w ws).head? = ws.head? := by
  cases ws with
  | nil => exact .inl rfl
  | cons x xs =>
    rw [insertWord]
    split
    · exact .inl rfl
    · exact .inr rfl

theorem wordsSorted_cons {x : List Nat} {ws : List (List Nat)} :
    wordsSorted (x :: ws) = true ↔ (∀ y ∈ ws.head?, wordLess x y = true) ∧ wordsSorted ws = true := by
  cases ws <;> simp [wordsSorted]

theorem wordsSorted_insertWord {w : List Nat} {ws : List (List Nat)} (hnew : w ∉ ws) (hs : wordsSorted ws = true) :
    wordsSorted (insertWord w ws) = true := by
  induction ws with
  | nil => rfl
  | cons x xs ih =>
    obtain ⟨hne, hxs⟩ := not_or.mp (mt List.mem_cons.mpr hnew)
    obtain ⟨hx, hs'⟩ := wordsSorted_cons.mp hs
    rw [insertWord]
    split
    case isTrue hlt => exact wordsSorted_cons.mpr ⟨fun y hy => Option.some.inj hy ▸ hlt, hs⟩
    case isFalse hge =>
      refine wordsSorted_cons.mpr ⟨fun y hy => ?_, ih hxs hs'⟩
      obtain hw | hold := head?_insertWord w xs
      · exact Option.some.inj (hw.symm.trans hy) ▸ wordLess_of_not_wordLess hne hge
      · exact hx y (hold ▸ hy)

/-! ### What the end of an event leaves of the lists -/

@[simp] theorem eventEnd_flagged (n : Nat) (s : State) : (eventEnd n s).spell.flagged = s.spell.flagged :=
  congrArg Kept.flagged (eventEnd_kept n s)

@[simp] theorem eventEnd_userList (n : Nat) (s : State) : (eventEnd n s).spell.userList = s.spell.userList :=
  congrArg Kept.userList (eventEnd_kept n s)

/-! ### A changed user list is saved (R136) -/

theorem withUserList_eq (ws : List (List Nat)) (s : State) :
    withUserList ws s
      = { s with
          spell := { s.spell with userList := ws }
          mem := { s.mem with nv := if .saveList none ∈ s.mem.nv then s.mem.nv else s.mem.nv ++ [.saveList none] } } := by
  by_cases h : NvItem.saveList none ∈ s.mem.nv <;> simp [withUserList, queueListSave, h]

/-! ### A flagged word accepted (R133) -/

/-- The verdict ACCEPTED on a state's flagged word: its letter cells, and the flagged list without it. -/
theorem acceptWord_eq (f : Flagged) (s : State) :
    acceptWord f s
      = eventEnd s.store.unprinted
          { s with
            store := s.store.mapCells fun c =>
              if c.word = some f.word then { c with mark := some .accepted, holds := { c.holds with word := false } } else c
            spell := { s.spell with flagged := s.spell.flagged.filter fun g => g.word != f.word } } := rfl

theorem flaggedByte_acceptWord (f : Flagged) (s : State) :
    flaggedByte (acceptWord f s) = BitVec.ofNat 8 (s.spell.flagged.filter fun g => g.word != f.word).length := by
  rw [flaggedByte, acceptWord_eq, eventEnd_flagged]

theorem userList_acceptWord (f : Flagged) (s : State) : (acceptWord f s).spell.userList = s.spell.userList := by
  rw [acceptWord_eq, eventEnd_userList]

theorem doSpellAccept_of_none {s : State} (h : s.spell.flagged = []) (tag : Byte) :
    doSpellAccept tag s = refuse 0x0E tag .notHeld s := by
  simp [doSpellAccept, h]

theorem doSpellAccept_of_flagged {s : State} {f : Flagged} {fs : List Flagged} (h : s.spell.flagged = f :: fs) (tag : Byte) :
    doSpellAccept tag s = reply 0x0E tag (flaggedByte (acceptWord f s) :: wordBytes f.letters) (acceptWord f s) := by
  simp [doSpellAccept, h]

/-! ### A flagged word added to the user list (R134) -/

theorem doSpellAdd_of_none {s : State} (h : s.spell.flagged = []) (tag : Byte) :
    doSpellAdd tag s = refuse 0x0F tag .notHeld s := by
  simp [doSpellAdd, h]

section
variable {s : State} {f : Flagged} {fs : List Flagged}

theorem doSpellAdd_of_known (h : s.spell.flagged = f :: fs) (hm : f.letters ∈ s.spell.userList) (tag : Byte) :
    doSpellAdd tag s
      = answer (refuseFrame 0x0F tag .duplicate [1, flaggedByte (acceptWord f s)]) (acceptWord f s) := by
  simp [doSpellAdd, h, hm]

theorem doSpellAdd_of_full (h : s.spell.flagged = f :: fs) (hm : f.letters ∉ s.spell.userList)
    (hn : 40 ≤ s.spell.userList.length) (tag : Byte) : doSpellAdd tag s = refuse 0x0F tag .listFull s := by
  simp [doSpellAdd, h, hm, hn]

theorem doSpellAdd_of_new (h : s.spell.flagged = f :: fs) (hm : f.letters ∉ s.spell.userList)
    (hn : s.spell.userList.length < 40) {t : State}
    (ht : t = acceptWord f (withUserList (insertWord f.letters s.spell.userList) s)) (tag : Byte) :
    doSpellAdd tag s
      = reply 0x0F tag (flaggedByte t :: BitVec.ofNat 8 t.spell.userList.length :: wordBytes f.letters) t := by
  have hfree : ¬ 40 ≤ s.spell.userList.length := Nat.not_le.mpr hn
  simp [doSpellAdd, h, hm, hfree, ht]

end

/-! ### The user list read and a word deleted (R135) -/

theorem doUserWordRead_of_outside {n : Byte} (h : 39 < n.toNat) (tag : Byte) (s : State) :
    doUserWordRead tag n s = refuse 0x10 tag .badValue s := if_pos h

theorem doUserWordRead_of_beyond {s : State} {n : Byte} (h : n.toNat ≤ 39) (hl : s.spell.userList.length ≤ n.toNat) (tag : Byte) :
    doUserWordRead tag n s = refuse 0x10 tag .notFound s := by
  simp [doUserWordRead, Nat.not_lt.mpr h, List.getElem?_eq_none hl]

theorem doUserWordRead_of_word {s : State} {n : Byte} {w : List Nat} (h : n.toNat ≤ 39) (hw : s.spell.userList[n.toNat]? = some w)
    (tag : Byte) :
    doUserWordRead tag n s = reply 0x10 tag (BitVec.ofNat 8 s.spell.userList.length :: wordBytes w) s := by
  simp [doUserWordRead, Nat.not_lt.mpr h, hw]

theorem any_not_isWordCode_iff (codes : List Byte) :
    codes.any (fun c => !isWordCode c.toNat) = true ↔ ∃ c ∈ codes, isLetterCode c.toNat = false ∧ c.toNat ≠ 39 := by
  simp [isWordCode]

theorem doUserWordDelete_of_bad {codes : List Byte}
    (h : codes.length < 2 ∨ 24 < codes.length ∨ ∃ c ∈ codes, isLetterCode c.toNat = false ∧ c.toNat ≠ 39) (tag : Byte) (s : State) :
    doUserWordDelete tag codes s = refuse 0x11 tag .badValue s :=
  if_pos (h.imp_right (Or.imp_right (any_not_isWordCode_iff codes).mpr))

section
variable {codes : List Byte} (hmin : 2 ≤ codes.length) (hmax : codes.length ≤ 24)
  (hc : ∀ c ∈ codes, isLetterCode c.toNat = true ∨ c.toNat = 39)
include hmin hmax hc

/-- A payload of the right form passes the check. -/
theorem not_badWord : ¬(codes.length < 2 ∨ 24 < codes.length ∨ codes.any (fun c => !isWordCode c.toNat) = true) := by
  rw [any_not_isWordCode_iff]
  rintro (hlt | hgt | ⟨c, hm, hletter, hap⟩)
  · exact absurd hmin (Nat.not_le.mpr hlt)
  · exact absurd hmax (Nat.not_le.mpr hgt)
  · simpa [hletter, hap] using hc c hm

theorem doUserWordDelete_of_absent {s : State} (hm : codes.map (fun c => foldCode c.toNat) ∉ s.spell.userList) (tag : Byte) :
    doUserWordDelete tag codes s = refuse 0x11 tag .notFound s := by
  simp only [doUserWordDelete, if_neg (not_badWord hmin hmax hc), List.contains_iff_mem, if_neg hm]

theorem doUserWordDelete_of_present {s t : State} {w : List Nat} (hw : w = codes.map fun c => foldCode c.toNat)
    (hm : w ∈ s.spell.userList) (ht : t = eventEnd s.store.unprinted (withUserList (s.spell.userList.filter (· != w)) s))
    (tag : Byte) : doUserWordDelete tag codes s = reply 0x11 tag [BitVec.ofNat 8 t.spell.userList.length] t := by
  subst hw ht
  simp only [doUserWordDelete, if_neg (not_badWord hmin hmax hc), List.contains_iff_mem, if_pos hm]

end

/-! ### The request rows, taken at once -/

section
variable {s : State} (h : Taken s) (tag : Byte)
include h

theorem Taken.exec_spellAccept : exec (.spellAccept tag) s = .next (doSpellAccept tag (atBlock tag .spellAccept s)) :=
  congrArg Host.Outcome.next (hostRequest_taken h tag _)

theorem Taken.exec_spellAdd : exec (.spellAdd tag) s = .next (doSpellAdd tag (atBlock tag .spellAdd s)) :=
  congrArg Host.Outcome.next (hostRequest_taken h tag _)

theorem Taken.exec_userWordRead (n : Byte) :
    exec (.userWordRead tag n) s = .next (doUserWordRead tag n (atBlock tag (.userWordRead n) s)) :=
  congrArg Host.Outcome.next (hostRequest_taken h tag _)

theorem Taken.exec_userWordDelete (codes : List Byte) :
    exec (.userWordDelete tag codes) s = .next (doUserWordDelete tag codes (atBlock tag (.userWordDelete codes) s)) :=
  congrArg Host.Outcome.next (hostRequest_taken h tag _)

/-- A refusal changes nothing but the countdown and the output queue. -/
theorem Taken.next_refuse_atBlock (r : Request) (kind : Byte) (code : RefusalCode) :
    (.next (refuse kind tag code (atBlock tag r s)) : Host.Outcome State Fault Refusal)
      = .next (answered (refuseFrame kind tag code) s) :=
  congrArg _ (answer_atBlock h.hand _ tag r)

end

/-! ### The statements -/

/-- Settles O29: the two requests by what the flagged list and the user list hold, and the sorted insertion. -/
theorem spellAcceptAndAdd : Obligations.SpellAcceptAndAdd := by
  unfold Obligations.SpellAcceptAndAdd
  refine ⟨?none, ?flagged, fun w ws hnew hs => ⟨wordsSorted_insertWord hnew hs, fun x => mem_insertWord⟩⟩
  case none =>
    intro tag s hs h
    rw [hs.exec_spellAccept, hs.exec_spellAdd, doSpellAccept_of_none (s := atBlock tag _ s) h,
      doSpellAdd_of_none (s := atBlock tag _ s) h]
    exact ⟨hs.next_refuse_atBlock tag _ _ _, hs.next_refuse_atBlock tag _ _ _⟩
  case flagged =>
    rintro tag f fs left store s hs h rfl rfl
    rw [hs.exec_spellAccept, hs.exec_spellAdd, ← h]
    refine ⟨?accept, fun hm => ?known, fun hm hn => ?full, fun hm hn => ?new⟩
    case accept =>
      rw [doSpellAccept_of_flagged (s := atBlock tag _ s) h, flaggedByte_acceptWord]
      rfl
    case known =>
      rw [doSpellAdd_of_known (s := atBlock tag _ s) h hm, flaggedByte_acceptWord]
      rfl
    case full =>
      rw [doSpellAdd_of_full (s := atBlock tag _ s) h hm hn]
      exact hs.next_refuse_atBlock tag _ _ _
    case new =>
      rw [doSpellAdd_of_new (s := atBlock tag _ s) h hm hn rfl, flaggedByte_acceptWord, userList_acceptWord, withUserList_eq,
        length_insertWord]
      rfl

/-- Settles O30: USER-WORD-DELETE by the form of its payload and the folded word's place in the list, USER-WORD-READ by its index. -/
theorem userWordsDeletedAndRead : Obligations.UserWordsDeletedAndRead := by
  unfold Obligations.UserWordsDeletedAndRead
  refine ⟨fun tag codes s hs => ?delete, fun tag n s hs => ?read⟩
  case delete =>
    rw [hs.exec_userWordDelete]
    refine ⟨fun hbad => ?bad, fun hmin hmax hc w hw => ⟨fun hm => ?absent, fun hm => ?present⟩⟩
    case bad =>
      rw [doUserWordDelete_of_bad hbad]
      exact hs.next_refuse_atBlock tag _ _ _
    case absent =>
      rw [doUserWordDelete_of_absent (s := atBlock tag _ s) hmin hmax hc (hw ▸ hm)]
      exact hs.next_refuse_atBlock tag _ _ _
    case present =>
      rw [doUserWordDelete_of_present (s := atBlock tag _ s) hmin hmax hc hw hm rfl, eventEnd_userList, withUserList_eq]
      rfl
  case read =>
    rw [hs.exec_userWordRead]
    refine ⟨fun w hn hw => ?word, fun hn hl => ?beyond, fun hn => ?outside⟩
    case word =>
      rw [doUserWordRead_of_word (s := atBlock tag _ s) hn hw]
      exact congrArg _ (answer_atBlock hs.hand _ tag _)
    case beyond =>
      rw [doUserWordRead_of_beyond (s := atBlock tag _ s) hn hl]
      exact hs.next_refuse_atBlock tag _ _ _
    case outside =>
      rw [doUserWordRead_of_outside hn]
      exact hs.next_refuse_atBlock tag _ _ _

end Sys2Proof.Machine
end

section
/-! PROOFS. The window start and the timers and sends of the display (R159, R162 to R164, R167): the two tests of the window start,
when a send begins and what it takes, the blink phase; then O54 and O58. -/

namespace Sys2Proof.Machine

/-! ### The two tests of the window start (R159) -/

/-- The first test: the cursor stands right of frame position 30. The second test then fails, the cursor standing at position 25. -/
theorem windowStart_of_right {cursor start : Nat} (h : start + 29 < cursor) : windowStart cursor start = cursor - 24 := by
  simp only [windowStart, if_pos h]
  exact if_neg (by omega)

/-- The second test: the cursor stands left of frame position 3 and text is hidden on that side. -/
theorem windowStart_of_left {cursor start : Nat} (h : cursor < start + 2) (h0 : 0 < start) :
    windowStart cursor start = cursor - 8 := by
  simp only [windowStart, if_neg (show ¬ start + 29 < cursor by omega)]
  exact if_pos ⟨h, h0⟩

theorem windowStart_of_between {cursor start : Nat} (hr : cursor ≤ start + 29) (hl : start + 2 ≤ cursor ∨ start = 0) :
    windowStart cursor start = start := by
  simp only [windowStart, if_neg (show ¬ start + 29 < cursor by omega)]
  exact if_neg (by omega)

/-! ### The blink phase (R162) -/

theorem blinkExpiry_of_on {s : State} (h : s.disp.state = .on) :
    blinkExpiry s = refreshDisplay { s with disp := { s.disp with blinkOn := !s.disp.blinkOn } } := by
  simp only [blinkExpiry, h]

theorem blinkExpiry_of_not_on {s : State} (h : s.disp.state ≠ .on) : blinkExpiry s = s := by
  cases hs : s.disp.state with
  | on => exact absurd hs h
  | starting | off => simp only [blinkExpiry, hs]

/-! ### When a send begins and what it takes (R164, R167) -/

theorem sendBegins_iff (d : Display) :
    sendBegins d = true
      ↔ d.sending = none ∧ (d.offOwed = true ∨ d.dirty = true ∧ d.gap = true ∧ d.state ≠ .off) := by
  simp [sendBegins, and_assoc]

/-- With the link SENDING nothing begins; with it IDLE and nothing owed, each of the three conditions of R164 is needed. -/
theorem sendBegins_eq_false {d : Display}
    (h : d.sending ≠ none ∨ d.offOwed = false ∧ (d.dirty = false ∨ d.gap = false ∨ d.state = .off)) : sendBegins d = false := by
  rw [Bool.eq_false_iff, Ne, sendBegins_iff]
  rintro ⟨hidle, howed | ⟨hdirty, hgap, hstate⟩⟩
  · obtain h | ⟨hno, -⟩ := h
    · exact h hidle
    · simp [howed] at hno
  · obtain h | ⟨-, h | h | h⟩ := h
    · exact h hidle
    · simp [hdirty] at h
    · simp [hgap] at h
    · exact hstate h

theorem sendBegin_of_begins {s : State} (h : sendBegins s.disp = true) :
    sendBegin s = { s with disp := beginSend (s.disp.state != .off) s.disp } :=
  if_pos h

theorem sendBegin_of_not_begins {s : State} (h : sendBegins s.disp = false) : sendBegin s = s :=
  if_neg (Bool.not_eq_true _ ▸ h)

/-- A frame sent while nothing is owed leaves the owed flag as it was. -/
theorem beginSend_of_not_owed {d : Display} (h : d.offOwed = false) (on : Bool) :
    beginSend on d = { d with sending := some (displayBytes on d.frame), dirty := false, gap := false } := by
  simp only [beginSend, h]

/-- R164: a dirty frame after the gap, in STARTING or ON. -/
theorem sendBegin_of_dirty {s : State} (hidle : s.disp.sending = none) (hstate : s.disp.state ≠ .off)
    (howed : s.disp.offOwed = false) (hdirty : s.disp.dirty = true) (hgap : s.disp.gap = true) :
    sendBegin s
      = { s with disp := { s.disp with sending := some (displayBytes true s.disp.frame), dirty := false, gap := false } } := by
  have hb : sendBegins s.disp = true := (sendBegins_iff _).mpr ⟨hidle, .inr ⟨hdirty, hgap, hstate⟩⟩
  rw [sendBegin_of_begins hb, bne_iff_ne.mpr hstate, beginSend_of_not_owed howed]

/-- R167: the owed switching-off frame, whatever the dirty and the gap flag (log 21). -/
theorem sendBegin_of_owed {s : State} (hidle : s.disp.sending = none) (hstate : s.disp.state = .off)
    (howed : s.disp.offOwed = true) :
    sendBegin s = { s with disp := beginSend false s.disp } := by
  have hb : sendBegins s.disp = true := (sendBegins_iff _).mpr ⟨hidle, .inl howed⟩
  rw [sendBegin_of_begins hb, hstate, bne_self_eq_false]

/-! ### The statements -/

/-- Settles O54: the blink timer by the display state, DISPLAY_SEND_BEGIN by the three cases of a send above. -/
theorem displayTimersAndSends : Obligations.DisplayTimersAndSends := by
  unfold Obligations.DisplayTimersAndSends
  refine fun s => ⟨fun h => ?blinks, fun h => ?still, fun hidle hstate howed hdirty hgap => ?dirty,
    fun hidle hstate howed => ?owed, fun h => ?waits, rfl, rfl⟩
  case blinks => exact congrArg Host.Outcome.next (blinkExpiry_of_on h)
  case still => exact congrArg Host.Outcome.next (blinkExpiry_of_not_on h)
  case dirty => exact congrArg Host.Outcome.next (sendBegin_of_dirty hidle hstate howed hdirty hgap)
  case owed => exact congrArg Host.Outcome.next (sendBegin_of_owed hidle hstate howed)
  case waits => exact congrArg Host.Outcome.next (sendBegin_of_not_begins (sendBegins_eq_false h))

/-- Settles O58: a test that fires puts the cursor at frame position 25 or at most 9; where none fires it was visible already. -/
theorem windowKeepsTheCursor : Obligations.WindowKeepsTheCursor := by
  unfold Obligations.WindowKeepsTheCursor
  intro cursor start
  by_cases hr : start + 29 < cursor
  · rw [windowStart_of_right hr]; omega
  by_cases hl : cursor < start + 2 ∧ 0 < start
  · obtain ⟨hleft, hhidden⟩ := hl
    rw [windowStart_of_left hleft hhidden]; omega
  · rw [windowStart_of_between (by omega) (by omega)]; omega

end Sys2Proof.Machine
end

section
/-! PROOFS. Request rows and the pending set (R173, log 1): a request row is the arrival of its request's frame, taken at once or buffered;
every event that can set, clear or mask a latch ends with the pending set brought up to date, and what follows that leaves latches,
masks and pending set alone; with O2, then O13 and O14. -/

namespace Sys2Proof.Machine

/-! ### A request row is its request's frame (log 1) -/

theorem exec_of_asRequest {c : Instr} {tag : Byte} {r : Request} (h : asRequest c = some (tag, r)) (s : State) :
    exec c s = .next (hostRequest tag r s) := by
  cases c <;> cases h <;> rfl

theorem startByteEvent_of_running {s : State} (h : s.mon.power = .running) : startByteEvent s = restartIdle s := by
  simp [startByteEvent, h]

theorem startByteEvent_of_standby {s : State} (h : s.mon.power = .standby) :
    startByteEvent s = eventEnd s.store.unprinted (wake s) := by
  simp [startByteEvent, h]

theorem bufferFrame_of_room {w : State} (h : w.link.input.length < 4) (f : Frame) :
    bufferFrame f w = { w with link := { w.link with input := w.link.input ++ [f] } } :=
  if_pos h

theorem bufferFrame_of_full {w : State} (h : 4 ≤ w.link.input.length) (f : Frame) :
    bufferFrame f w = setLatch .inputOverrun { w with link := countError w.link } :=
  if_neg (Nat.not_lt.mpr h)

section
variable {s w : State} {woke : Bool} (hw : startByteEvent s = w) (hwoke : (s.mon.power == .standby) = woke)
include hw hwoke

/-- After its start byte a request is served when no older frame waits and the link can take one, else its frame is buffered. -/
theorem hostRequest_eq (tag : Byte) (r : Request) :
    hostRequest tag r s
      = if w.link.input = [] ∧ canTake w = true then serve tag woke r (takeInHand (requestFrame tag woke r) w)
        else noticeCheck (bufferFrame (requestFrame tag woke r) w) := by
  subst hw hwoke
  simp [hostRequest]

theorem hostRequest_of_free (hi : w.link.input = []) (hc : canTake w = true) (tag : Byte) (r : Request) :
    hostRequest tag r s = serve tag woke r (takeInHand (requestFrame tag woke r) w) := by
  rw [hostRequest_eq hw hwoke, if_pos ⟨hi, hc⟩]

theorem hostRequest_of_busy (h : w.link.input ≠ [] ∨ canTake w = false) (tag : Byte) (r : Request) :
    hostRequest tag r s = noticeCheck (bufferFrame (requestFrame tag woke r) w) := by
  rw [hostRequest_eq hw hwoke, if_neg]
  rintro ⟨hi, hc⟩
  obtain h | h := h
  · exact h hi
  · simp [hc] at h

end

/-- R187: start-up has ended, no request is in hand, and filled and reserved places together are fewer than 8. -/
theorem canTake_iff (s : State) :
    canTake s = true
      ↔ s.mem.settingsRead = true ∧ s.mem.listRead = true ∧ s.link.hand = none
        ∧ s.link.output.length + s.link.drain.isSome.toNat + s.link.save.isSome.toNat < 8 := by
  simp only [canTake, Bool.and_eq_true, decide_eq_true_eq, Option.isNone_iff_eq_none, and_assoc]
  refine and_congr_right fun _ => and_congr_right fun _ => and_congr_right fun hhand => ?_
  simp only [freePlaces, reservedPlaces, Config.outputPlaces, hhand, Option.isSome_none, Bool.toNat_false]
  omega

/-- Settles O2: the start byte's event by the power state, then the three cases by the input buffer and the link. -/
theorem requestRowTakenAtOnceOrWaits : Obligations.RequestRowTakenAtOnceOrWaits := by
  unfold Obligations.RequestRowTakenAtOnceOrWaits
  refine ⟨?row, fun s => ⟨canTake_iff s, rfl⟩⟩
  intro c tag r s w woke hrow hpower
  have hstart : startByteEvent s = w ∧ (s.mon.power == .standby) = woke := by
    obtain ⟨hp, rfl, rfl⟩ | ⟨hp, rfl, rfl⟩ := hpower
    · exact ⟨startByteEvent_of_running hp, by rw [hp]; rfl⟩
    · exact ⟨startByteEvent_of_standby hp, by rw [hp]; rfl⟩
  obtain ⟨hw, hwoke⟩ := hstart
  rw [exec_of_asRequest hrow]
  refine ⟨fun hi hc => ?taken, fun hbusy hroom => ?waits, fun hfull => ?dropped⟩
  case taken => rw [hostRequest_of_free hw hwoke hi hc]
  case waits => rw [hostRequest_of_busy hw hwoke hbusy, bufferFrame_of_room hroom]
  case dropped =>
    have hne : w.link.input ≠ [] := List.ne_nil_of_length_pos (by omega)
    rw [hostRequest_of_busy hw hwoke (.inl hne), bufferFrame_of_full hfull]

/-! ### Where the pending set is brought up to date, and what leaves it so (R173) -/

@[simp] theorem pendingUpToDate_noticeCheck (s : State) : PendingUpToDate (noticeCheck s) := by
  dsimp only [noticeCheck]
  split <;> rfl

@[simp] theorem pendingUpToDate_eventEnd (before : Nat) (s : State) : PendingUpToDate (eventEnd before s) :=
  pendingUpToDate_noticeCheck _

@[simp] theorem pendingUpToDate_answer (f : OutFrame) (s : State) : PendingUpToDate (answer f s) ↔ PendingUpToDate s := Iff.rfl

@[simp] theorem pendingUpToDate_reply (kind tag : Byte) (payload : List Byte) (s : State) :
    PendingUpToDate (reply kind tag payload s) ↔ PendingUpToDate s := Iff.rfl

@[simp] theorem pendingUpToDate_refuse (kind tag : Byte) (code : RefusalCode) (s : State) :
    PendingUpToDate (refuse kind tag code s) ↔ PendingUpToDate s := Iff.rfl

theorem pendingUpToDate_beep (p : BeepPattern) (s : State) : PendingUpToDate (beep p s) ↔ PendingUpToDate s := by
  unfold beep
  split <;> rfl

/-- A state that differs only outside the Monitor. -/
theorem PendingUpToDate.of_mon {s t : State} (h : PendingUpToDate s) (hm : t.mon = s.mon) : PendingUpToDate t := by
  rw [PendingUpToDate, hm]
  exact h

/-! ### The requests (R188) -/

section
variable {s : State} (h : PendingUpToDate s) (tag : Byte)
include h

/-- A key entered ends an event; a refused key with a latch ends one, and a refused key without is no event (R10). -/
theorem pendingUpToDate_enterKeys (recs : List KeyRec) : PendingUpToDate (enterKeys recs s).2.2 := by
  induction recs generalizing s with
  | nil => exact h
  | cons r rs ih =>
    unfold enterKeys
    split
    case h_1 e _ =>
      dsimp only [refuseKey]
      split
      · exact h
      · exact pendingUpToDate_noticeCheck _
    case h_2 k _ => exact ih (pendingUpToDate_eventEnd _ _)

theorem pendingUpToDate_doKeys (recs : List KeyRec) : PendingUpToDate (doKeys tag recs s) := by
  unfold doKeys
  split
  · exact pendingUpToDate_enterKeys h recs
  · exact h

theorem pendingUpToDate_eraseLast (kind : Byte) (n : Nat) : PendingUpToDate (eraseLast kind tag n s) := by
  dsimp only [eraseLast, correctionFull]
  repeat' split
  all_goals simp [h]

theorem pendingUpToDate_doCorrect : PendingUpToDate (doCorrect tag s) := by
  dsimp only [doCorrect, correctAcross, correctionFull]
  repeat' split
  case isFalse => exact pendingUpToDate_eraseLast h tag _ _
  all_goals simp [h]

theorem pendingUpToDate_doIndex (direction count : Byte) : PendingUpToDate (doIndex tag direction count s) := by
  unfold doIndex
  repeat' split
  all_goals simp [h]

theorem pendingUpToDate_doSetMargins (left right : Half) : PendingUpToDate (doSetMargins tag left right s) := by
  unfold doSetMargins
  split <;> simp [h]

theorem pendingUpToDate_doSetLayout (f : LayoutFields) : PendingUpToDate (doSetLayout tag f s) := by
  unfold doSetLayout
  split <;> simp [h]

theorem pendingUpToDate_doSetTab (position : Half) (kind : Byte) : PendingUpToDate (doSetTab tag position kind s) := by
  dsimp only [doSetTab]
  repeat' split
  all_goals exact h

theorem pendingUpToDate_doClearTab (position : Half) : PendingUpToDate (doClearTab tag position s) := by
  dsimp only [doClearTab]
  split <;> exact h

theorem pendingUpToDate_doSpellEnable (b : Byte) : PendingUpToDate (doSpellEnable tag b s) := by
  unfold doSpellEnable
  split <;> simp [h]

theorem pendingUpToDate_doSpellAccept : PendingUpToDate (doSpellAccept tag s) := by
  unfold doSpellAccept acceptWord
  split <;> simp [h]

theorem pendingUpToDate_doSpellAdd : PendingUpToDate (doSpellAdd tag s) := by
  unfold doSpellAdd acceptWord
  repeat' split
  all_goals simp [h]

theorem pendingUpToDate_doUserWordRead (n : Byte) : PendingUpToDate (doUserWordRead tag n s) := by
  unfold doUserWordRead
  repeat' split
  all_goals exact h

theorem pendingUpToDate_doUserWordDelete (codes : List Byte) : PendingUpToDate (doUserWordDelete tag codes s) := by
  dsimp only [doUserWordDelete]
  repeat' split
  all_goals simp [h]

theorem pendingUpToDate_doDrain : PendingUpToDate (doDrain tag s) := by
  dsimp only [doDrain]
  repeat' split
  all_goals exact h

theorem pendingUpToDate_doSaveSettings : PendingUpToDate (doSaveSettings tag s) := by
  unfold doSaveSettings
  split <;> simp [h]

theorem pendingUpToDate_doWheelAssign (id : Byte) : PendingUpToDate (doWheelAssign tag id s) := by
  unfold doWheelAssign
  repeat' split
  all_goals simp [h]

theorem pendingUpToDate_doResume : PendingUpToDate (doResume tag s) := by
  unfold doResume fitMounted
  split <;> simp [h]

theorem pendingUpToDate_doDiscard : PendingUpToDate (doDiscard tag s) := by
  unfold doDiscard fitMounted
  split <;> simp [h]

theorem pendingUpToDate_doRecover : PendingUpToDate (doRecover tag s) := by
  unfold doRecover
  split <;> simp [h]

theorem pendingUpToDate_doDisplayOverlay (timeout first : Byte) (codes : List Byte) :
    PendingUpToDate (doDisplayOverlay tag timeout first codes s) := by
  dsimp only [doDisplayOverlay]
  repeat' split
  all_goals exact h

theorem pendingUpToDate_doDisplayRelease : PendingUpToDate (doDisplayRelease tag s) := by
  unfold doDisplayRelease
  split <;> exact h

theorem pendingUpToDate_doEventsRead (group : Byte) : PendingUpToDate (doEventsRead tag group s) := by
  unfold doEventsRead
  split <;> exact h

theorem pendingUpToDate_doEventsClear (group : Byte) (set : Half) : PendingUpToDate (doEventsClear tag group set s) := by
  unfold doEventsClear
  split <;> simp [h]

theorem pendingUpToDate_doEventMask (group : Byte) (set : Half) : PendingUpToDate (doEventMask tag group set s) := by
  unfold doEventMask
  split <;> simp [h]

theorem pendingUpToDate_doSensorConfig (sensor edge change wakeup : Byte) :
    PendingUpToDate (doSensorConfig tag sensor edge change wakeup s) := by
  unfold doSensorConfig
  split <;> exact h

theorem pendingUpToDate_doLamp (line : Byte) (assignment level : Option Byte) :
    PendingUpToDate (doLamp tag line assignment level s) := by
  unfold doLamp
  split <;> exact h

theorem pendingUpToDate_doBeep (pattern : Byte) : PendingUpToDate (doBeep tag pattern s) := by
  unfold doBeep
  split
  · exact h
  · exact (pendingUpToDate_beep _ _).mpr h

/-- Every request leaves the pending set up to date: what it changes is no latch and no mask, or ends with an event. -/
theorem pendingUpToDate_serve (woke : Bool) (r : Request) : PendingUpToDate (serve tag woke r s) := by
  cases r with
  | identify | status | clearAllTabs => exact h
  | keys recs => exact pendingUpToDate_doKeys h tag recs
  | correct => exact pendingUpToDate_doCorrect h tag
  | wordErase | lineErase => exact pendingUpToDate_eraseLast h tag _ _
  | index d c => exact pendingUpToDate_doIndex h tag d c
  | setMargins l r => exact pendingUpToDate_doSetMargins h tag l r
  | setLayout f => exact pendingUpToDate_doSetLayout h tag f
  | setTab p k => exact pendingUpToDate_doSetTab h tag p k
  | clearTab p => exact pendingUpToDate_doClearTab h tag p
  | spellEnable b => exact pendingUpToDate_doSpellEnable h tag b
  | spellAccept => exact pendingUpToDate_doSpellAccept h tag
  | spellAdd => exact pendingUpToDate_doSpellAdd h tag
  | userWordRead n => exact pendingUpToDate_doUserWordRead h tag n
  | userWordDelete cs => exact pendingUpToDate_doUserWordDelete h tag cs
  | drain => exact pendingUpToDate_doDrain h tag
  | wheelAssign n => exact pendingUpToDate_doWheelAssign h tag n
  | resume => exact pendingUpToDate_doResume h tag
  | discard => exact pendingUpToDate_doDiscard h tag
  | recover => exact pendingUpToDate_doRecover h tag
  | displayOverlay o f cs => exact pendingUpToDate_doDisplayOverlay h tag o f cs
  | displayRelease => exact pendingUpToDate_doDisplayRelease h tag
  | eventsRead g => exact pendingUpToDate_doEventsRead h tag g
  | eventsClear g m => exact pendingUpToDate_doEventsClear h tag g m
  | eventMask g m => exact pendingUpToDate_doEventMask h tag g m
  | sensorConfig n e c w => exact pendingUpToDate_doSensorConfig h tag n e c w
  | lamp n a l => exact pendingUpToDate_doLamp h tag n a l
  | beep p => exact pendingUpToDate_doBeep h tag p
  | saveSettings => exact pendingUpToDate_doSaveSettings h tag
  | reset => exact pendingUpToDate_eventEnd _ _

theorem pendingUpToDate_startByteEvent : PendingUpToDate (startByteEvent s) := by
  unfold startByteEvent
  split
  · exact pendingUpToDate_eventEnd _ _
  · exact h

theorem pendingUpToDate_hostRequest (r : Request) : PendingUpToDate (hostRequest tag r s) := by
  dsimp only [hostRequest]
  split
  · exact pendingUpToDate_serve (s := takeInHand _ _) (pendingUpToDate_startByteEvent h) tag _ r
  · exact pendingUpToDate_noticeCheck _

theorem pendingUpToDate_serveFrame (f : Frame) : PendingUpToDate (serveFrame f s) := by
  unfold serveFrame
  split
  · exact pendingUpToDate_serve (s := takeInHand f s) h _ _ _
  · exact h
  · exact h

theorem pendingUpToDate_takeOldest : PendingUpToDate (takeOldest s) := by
  unfold takeOldest
  split
  case h_1 => exact h
  case h_2 f rest _ =>
    split
    · exact pendingUpToDate_serveFrame (s := { s with link := { s.link with input := rest } }) h f
    · exact h

/-! ### The link and the memory bus -/

theorem pendingUpToDate_frameTimeout : PendingUpToDate (frameTimeout s) := by
  unfold frameTimeout
  split
  · exact pendingUpToDate_noticeCheck _
  · exact h

theorem pendingUpToDate_frameSent : PendingUpToDate (frameSent s) := by
  unfold frameSent
  repeat' split
  all_goals exact h

theorem pendingUpToDate_endHeaderRead (bytes : List Byte) : PendingUpToDate (endHeaderRead bytes s) := by
  unfold endHeaderRead
  split <;> simp [h]

theorem pendingUpToDate_endTableLoad (bytes : List Byte) : PendingUpToDate (endTableLoad bytes s) := by
  unfold endTableLoad
  repeat' split
  all_goals simp [h]

theorem pendingUpToDate_endDirectoryRead (bytes : List Byte) : PendingUpToDate (endDirectoryRead bytes s) := by
  unfold endDirectoryRead
  repeat' split
  all_goals simp [h]

theorem pendingUpToDate_endBucketRead (bytes : List Byte) : PendingUpToDate (endBucketRead bytes s) := by
  unfold endBucketRead
  repeat' split
  all_goals simp [h]

theorem pendingUpToDate_endRecordRead (bytes : List Byte) : PendingUpToDate (endRecordRead bytes s) := by
  unfold endRecordRead
  split <;> simp [h]

theorem pendingUpToDate_endPageWrite : PendingUpToDate (endPageWrite s) := by
  unfold endPageWrite
  split <;> simp [h]

theorem pendingUpToDate_endPageReadback (bytes : List Byte) : PendingUpToDate (endPageReadback bytes s) := by
  unfold endPageReadback
  repeat' split
  all_goals simp [h]

/-! ### The mechanism, the sensors and the timers -/

theorem pendingUpToDate_supervisionTick (busMoved : Bool) : PendingUpToDate (supervisionTick busMoved s) := by
  unfold supervisionTick
  split <;> simp [h]

theorem pendingUpToDate_stallMarked : PendingUpToDate (stallMarked s) := by
  unfold stallMarked
  split <;> simp [h]

theorem pendingUpToDate_homingWheelEnd (id : Nat) : PendingUpToDate (homingWheelEnd id s) := by
  unfold homingWheelEnd
  repeat' split
  all_goals simp [h]

theorem pendingUpToDate_sensorChange (n : Sensor) (level : Bool) : PendingUpToDate (sensorChange n level s) := by
  dsimp only [sensorChange]
  repeat' split
  all_goals simp [h]

omit h in
/-- Standby ends its event before the transmitter's frames are counted (R180). -/
theorem pendingUpToDate_enterStandby (s : State) : PendingUpToDate (enterStandby s) :=
  (pendingUpToDate_noticeCheck _).of_mon rfl

theorem pendingUpToDate_idleExpiry : PendingUpToDate (idleExpiry s) := by
  unfold idleExpiry
  repeat' split
  case isTrue => exact pendingUpToDate_enterStandby s
  all_goals exact h

theorem pendingUpToDate_standbyAtZero : PendingUpToDate (standbyAtZero s) := by
  unfold standbyAtZero
  repeat' split
  case isTrue => exact pendingUpToDate_enterStandby s
  all_goals exact h

theorem pendingUpToDate_blinkExpiry : PendingUpToDate (blinkExpiry s) := by
  unfold blinkExpiry
  split <;> exact h

theorem pendingUpToDate_sendBegin : PendingUpToDate (sendBegin s) := by
  unfold sendBegin
  split <;> exact h

theorem pendingUpToDate_overlayExpiry : PendingUpToDate (overlayExpiry s) := by
  unfold overlayExpiry
  split <;> exact h

end

/-! ### Every command and every step -/

theorem exec_keeps_pendingUpToDate {s t : State} (h : PendingUpToDate s) (c : Instr) (ht : exec c s = .next t) :
    PendingUpToDate t := by
  cases hr : asRequest c with
  | some p =>
    rw [exec_of_asRequest hr] at ht
    exact Host.Outcome.next.inj ht ▸ pendingUpToDate_hostRequest h p.1 p.2
  | none =>
    cases c with
    | identify | status | keys | correct | wordErase | lineErase | index | setMargins | setLayout | setTab | clearTab | clearAllTabs
    | spellAccept | spellAdd | userWordRead | userWordDelete | drain | wheelAssign | discard | recover | displayOverlay
    | displayRelease | eventsRead | eventsClear | eventMask | sensorConfig | lamp | beep | saveSettings | reset => cases hr
    | receiveByte | brokenByte => exact Host.Outcome.next.inj ht ▸ pendingUpToDate_noticeCheck _
    | powerOnReset | encoderEdge | motionSettled | hammerPulseEnd | hammerHome | lifterDone | platenStep | parkMoveDone =>
      exact Host.Outcome.next.inj ht ▸ pendingUpToDate_eventEnd _ _
    | displaySendEnd | gapTimerExpiry | beeperTimerExpiry => exact Host.Outcome.next.inj ht ▸ h
    | partialFrameTimeout => exact Host.Outcome.next.inj ht ▸ pendingUpToDate_frameTimeout h
    | takeRequest => exact Host.Outcome.next.inj ht ▸ pendingUpToDate_takeOldest h
    | frameSent => exact Host.Outcome.next.inj ht ▸ pendingUpToDate_frameSent h
    | headerReadEnd bytes => exact Host.Outcome.next.inj ht ▸ pendingUpToDate_endHeaderRead h bytes
    | tableLoadEnd bytes => exact Host.Outcome.next.inj ht ▸ pendingUpToDate_endTableLoad h bytes
    | directoryReadEnd bytes => exact Host.Outcome.next.inj ht ▸ pendingUpToDate_endDirectoryRead h bytes
    | bucketReadEnd bytes => exact Host.Outcome.next.inj ht ▸ pendingUpToDate_endBucketRead h bytes
    | nvRecordReadEnd bytes => exact Host.Outcome.next.inj ht ▸ pendingUpToDate_endRecordRead h bytes
    | pageWriteEnd => exact Host.Outcome.next.inj ht ▸ pendingUpToDate_endPageWrite h
    | pageReadbackEnd bytes => exact Host.Outcome.next.inj ht ▸ pendingUpToDate_endPageReadback h bytes
    | supervisionTick moved => exact Host.Outcome.next.inj ht ▸ pendingUpToDate_supervisionTick h moved
    | stall => exact Host.Outcome.next.inj ht ▸ pendingUpToDate_stallMarked h
    | wheelHomingEnd id => exact Host.Outcome.next.inj ht ▸ pendingUpToDate_homingWheelEnd h _
    | sensorLevelChange n level => exact Host.Outcome.next.inj ht ▸ pendingUpToDate_sensorChange h n level
    | idleTimerExpiry => exact Host.Outcome.next.inj ht ▸ pendingUpToDate_idleExpiry h
    | standbyEntry => exact Host.Outcome.next.inj ht ▸ pendingUpToDate_standbyAtZero h
    | blinkTimerExpiry => exact Host.Outcome.next.inj ht ▸ pendingUpToDate_blinkExpiry h
    | displaySendBegin => exact Host.Outcome.next.inj ht ▸ pendingUpToDate_sendBegin h
    | overlayTimeout => exact Host.Outcome.next.inj ht ▸ pendingUpToDate_overlayExpiry h

/-- Settles O13: an empty queue idles, and every command keeps the pending set up to date. -/
theorem pendingSetFollowsLatchesAndMasks : Obligations.PendingSetFollowsLatchesAndMasks := by
  unfold Obligations.PendingSetFollowsLatchesAndMasks
  intro s t h hstep
  unfold step at hstep
  split at hstep
  case h_1 => exact Host.Outcome.next.inj hstep ▸ h
  case h_2 c rest _ => exact exec_keeps_pendingUpToDate (s := { s with pending := rest }) h c hstep

/-- Settles O14: the queues and buffers are empty and no latch is set. -/
theorem invariantsHoldAtReset : Obligations.InvariantsHoldAtReset := by
  unfold Obligations.InvariantsHoldAtReset
  refine ⟨⟨rfl, ?input, ?errors, ?places⟩, ⟨?jobs, ?lines⟩, rfl⟩
  all_goals decide

end Sys2Proof.Machine
end

section
/-! PROOFS. The Monitor's requests and the ends of its events (R170, R174, R176, R177, R178): names by their bytes, latches cleared or
masked with the NOTICE that may follow, a sensor configured, a lamp line assigned and driven, the beeper's pattern; then O35, O36 and
O37. -/

namespace Sys2Proof.Machine

/-! ### Names by their bytes (R195) -/

theorem groupOfByte_of_gt {n : Byte} (h : 4 < n.toNat) : groupOfByte n = none := by
  unfold groupOfByte
  split
  case h_6 => rfl
  all_goals omega

theorem sensorOfByte_of_gt {n : Byte} (h : 5 < n.toNat) : sensorOfByte n = none := by
  unfold sensorOfByte
  split
  case h_7 => rfl
  all_goals omega

theorem edgeOfNat_of_gt {n : Nat} (h : 2 < n) : edgeOfNat n = none := by
  unfold edgeOfNat
  split
  case h_4 => rfl
  all_goals omega

theorem boolOfByte_of_gt {b : Byte} (h : 1 < b.toNat) : boolOfByte b = none := by
  unfold boolOfByte
  split
  case h_3 => rfl
  all_goals omega

theorem boolOfByte_of_le {b : Byte} (h : b.toNat ≤ 1) : boolOfByte b = some (b == 1) := by
  have hb : b = 0 ∨ b = 1 := by
    obtain hb | hb := Nat.le_one_iff_eq_zero_or_eq_one.mp h
    · exact .inl (BitVec.eq_of_toNat_eq hb)
    · exact .inr (BitVec.eq_of_toNat_eq hb)
  obtain rfl | rfl := hb <;> rfl

theorem lampFunctionOfByte_of_gt {b : Byte} (h : 4 < b.toNat) : lampFunctionOfByte b = none := by
  unfold lampFunctionOfByte
  split
  case h_6 => rfl
  all_goals omega

theorem lampFunctionOfByte_of_le {b : Byte} (h : b.toNat ≤ 4) : ∃ f, lampFunctionOfByte b = some f := by
  have hb : b.toNat = 0 ∨ b.toNat = 1 ∨ b.toNat = 2 ∨ b.toNat = 3 ∨ b.toNat = 4 := by omega
  unfold lampFunctionOfByte
  obtain hb | hb | hb | hb | hb := hb
  all_goals
    rw [hb]
    exact ⟨_, rfl⟩

theorem patternOfByte_of_gt {b : Byte} (h : 3 < b.toNat) : patternOfByte b = none := by
  unfold patternOfByte
  split
  case h_5 => rfl
  all_goals omega

/-! ### The bits of the event groups -/

@[simp] theorem GroupBits.get_set (b : GroupBits) (x : Half) (g : Group) : (b.set x g).get g = x := by
  cases g <;> rfl

theorem unmasked_eq_zero_of_cleared {l m : Half} (hl : l &&& ~~~m = 0) (h : Half) : l &&& ~~~h &&& ~~~m = 0 := by
  rw [BitVec.and_assoc, BitVec.and_comm (~~~h), ← BitVec.and_assoc, hl]
  exact BitVec.zero_and

/-- Latches cleared make no group pending. -/
theorem gained_of_cleared (latches masks : GroupBits) (h : Half) (g : Group) :
    (pendingOf latches masks).gained (pendingOf (latches.set (latches.get g &&& ~~~h) g) masks) = false := by
  rw [Bool.eq_false_iff, Ne, gained_iff]
  cases g <;> simp [pendingOf, GroupBits.set, GroupBits.get] <;> exact fun hne hl => hne (unmasked_eq_zero_of_cleared hl h)

/-! ### What the end of an event does to the Monitor (R173) -/

@[simp] theorem noticeCheck_mon (s : State) :
    (noticeCheck s).mon = { s.mon with pendingSet := pendingOf s.mon.latches s.mon.masks } := by
  dsimp only [noticeCheck]
  split <;> rfl

/-! ### A NOTICE before the reply: the request in hand reserves a place of its own (R173, R187) -/

section
variable {s : State} (hhand : s.link.hand = none) (tag : Byte) (r : Request) {p : PendingSet}
  (hp : p = pendingOf s.mon.latches s.mon.masks)
include hhand

theorem places_atBlock : places (atBlock tag r s).link = places s.link + 1 := by
  simp [places, reservedPlaces, atBlock, hhand]
  omega

theorem reply_atBlock (kind : Byte) (payload : List Byte) :
    reply kind tag payload (atBlock tag r s) = answered (replyFrame kind tag payload) s :=
  answer_atBlock hhand _ tag r

include hp

theorem noticeCheck_atBlock_of_silent (h : s.mon.pendingSet.gained p = false ∨ freePlaces s.link ≤ 1) :
    noticeCheck (atBlock tag r s) = atBlock tag r { s with mon := { s.mon with pendingSet := p } } := by
  subst hp
  refine noticeCheck_of_silent (h.imp id fun hfree => ?_)
  rw [places_atBlock hhand]
  change 8 - places s.link ≤ 1 at hfree
  omega

theorem noticeCheck_atBlock_of_gained (h : s.mon.pendingSet.gained p = true) (hfree : 2 ≤ freePlaces s.link) :
    noticeCheck (atBlock tag r s)
      = atBlock tag r
          { s with
            mon := { s.mon with pendingSet := p }
            link := { s.link with output := s.link.output ++ [noticeFrame p] } } := by
  subst hp
  refine noticeCheck_of_gained h ?_
  rw [places_atBlock hhand]
  change 2 ≤ 8 - places s.link at hfree
  omega

end

/-! ### The event requests at their block (R174) -/

/-- What EVENTS-CLEAR changes before its event ends: the latches of one group. -/
def withLatchesOf (g : Group) (x : Half) (s : State) : State :=
  { s with mon := { s.mon with latches := s.mon.latches.set x g } }

/-- What EVENT-MASK changes before its event ends: the masks of one group. -/
def withMasksOf (g : Group) (x : Half) (s : State) : State :=
  { s with mon := { s.mon with masks := s.mon.masks.set x g } }

section
variable {n : Byte} {g : Group} (hg : groupOfByte n = some g) (tag : Byte) (r : Request) (s : State)
include hg

theorem doEventsRead_of_group :
    doEventsRead tag n s
      = reply 0x19 tag
          [n, lowByte (s.mon.latches.get g), highByte (s.mon.latches.get g), lowByte (s.mon.masks.get g), highByte (s.mon.masks.get g)]
          s := by
  simp [doEventsRead, hg, halfBytes]

theorem doEventsClear_of_group {m x : Half} {p : PendingSet} (hx : x = s.mon.latches.get g &&& ~~~m)
    (hp : p = pendingOf (s.mon.latches.set x g) s.mon.masks) :
    doEventsClear tag n m (atBlock tag r s)
      = reply 0x1A tag [n, lowByte x, highByte x, p.byte]
          (noticeCheck (atBlock tag r (withLatchesOf g x s))) := by
  subst hx hp
  simp only [doEventsClear, hg, noticeCheck_mon, GroupBits.get_set, halfBytes]
  rfl

theorem doEventMask_of_group {m x : Half} {p : PendingSet} (hx : x = m &&& GroupBits.all.get g)
    (hp : p = pendingOf s.mon.latches (s.mon.masks.set x g)) :
    doEventMask tag n m (atBlock tag r s)
      = reply 0x1B tag [n, lowByte x, highByte x, p.byte]
          (noticeCheck (atBlock tag r (withMasksOf g x s))) := by
  subst hx hp
  simp only [doEventMask, hg, noticeCheck_mon, GroupBits.get_set, halfBytes]
  rfl

end

/-! ### The event requests, taken at once (R174) -/

section
variable {s : State} (h : Taken s) (tag : Byte)
include h

theorem Taken.exec_eventsRead (n : Byte) :
    exec (.eventsRead tag n) s = .next (doEventsRead tag n (atBlock tag (.eventsRead n) s)) :=
  congrArg Host.Outcome.next (hostRequest_taken h tag _)

theorem Taken.exec_eventsClear (n : Byte) (m : Half) :
    exec (.eventsClear tag n m) s = .next (doEventsClear tag n m (atBlock tag (.eventsClear n m) s)) :=
  congrArg Host.Outcome.next (hostRequest_taken h tag _)

theorem Taken.exec_eventMask (n : Byte) (m : Half) :
    exec (.eventMask tag n m) s = .next (doEventMask tag n m (atBlock tag (.eventMask n m) s)) :=
  congrArg Host.Outcome.next (hostRequest_taken h tag _)

theorem Taken.exec_events_badGroup {n : Byte} (hn : 4 < n.toNat) (m : Half) :
    exec (.eventsRead tag n) s = .next (answered { kind := 0xE1, tag := tag, payload := [3, 0x19] } s)
      ∧ exec (.eventsClear tag n m) s = .next (answered { kind := 0xE1, tag := tag, payload := [3, 0x1A] } s)
      ∧ exec (.eventMask tag n m) s = .next (answered { kind := 0xE1, tag := tag, payload := [3, 0x1B] } s) := by
  have hg := groupOfByte_of_gt hn
  rw [h.exec_eventsRead, h.exec_eventsClear, h.exec_eventMask]
  simp only [doEventsRead, doEventsClear, doEventMask, hg]
  exact ⟨h.next_refuse_atBlock tag _ _ _, h.next_refuse_atBlock tag _ _ _, h.next_refuse_atBlock tag _ _ _⟩

variable {n : Byte} {g : Group} (hg : groupOfByte n = some g) {m x : Half} {p : PendingSet}
include hg

theorem Taken.exec_eventsClear_of_group (hs : PendingUpToDate s) (hx : x = s.mon.latches.get g &&& ~~~m)
    (hp : p = pendingOf (s.mon.latches.set x g) s.mon.masks) :
    exec (.eventsClear tag n m) s
      = .next (answered { kind := 0x9A, tag := tag, payload := [n, lowByte x, highByte x, p.byte] }
          { s with mon := { s.mon with latches := s.mon.latches.set x g, pendingSet := p } }) := by
  have hsilent : s.mon.pendingSet.gained p = false := by
    rw [show s.mon.pendingSet = _ from hs, hp, hx]
    exact gained_of_cleared _ _ m g
  rw [h.exec_eventsClear, doEventsClear_of_group hg tag _ s hx hp,
    noticeCheck_atBlock_of_silent (s := withLatchesOf g x s) h.hand tag _ hp (.inl hsilent), reply_atBlock]
  · rfl
  · exact h.hand

theorem Taken.exec_eventMask_silent (hx : x = m &&& GroupBits.all.get g) (hp : p = pendingOf s.mon.latches (s.mon.masks.set x g))
    (hsilent : s.mon.pendingSet.gained p = false ∨ freePlaces s.link ≤ 1) :
    exec (.eventMask tag n m) s
      = .next (answered { kind := 0x9B, tag := tag, payload := [n, lowByte x, highByte x, p.byte] }
          { s with mon := { s.mon with masks := s.mon.masks.set x g, pendingSet := p } }) := by
  rw [h.exec_eventMask, doEventMask_of_group hg tag _ s hx hp,
    noticeCheck_atBlock_of_silent (s := withMasksOf g x s) h.hand tag _ hp hsilent, reply_atBlock]
  · rfl
  · exact h.hand

theorem Taken.exec_eventMask_gained (hx : x = m &&& GroupBits.all.get g) (hp : p = pendingOf s.mon.latches (s.mon.masks.set x g))
    (hgained : s.mon.pendingSet.gained p = true) (hfree : 2 ≤ freePlaces s.link) :
    exec (.eventMask tag n m) s
      = .next (answered { kind := 0x9B, tag := tag, payload := [n, lowByte x, highByte x, p.byte] }
          { s with
            mon := { s.mon with masks := s.mon.masks.set x g, pendingSet := p }
            link := { s.link with output := s.link.output ++ [{ kind := 0xE0, tag := 0, payload := [p.byte] }] } }) := by
  rw [h.exec_eventMask, doEventMask_of_group hg tag _ s hx hp,
    noticeCheck_atBlock_of_gained (s := withMasksOf g x s) h.hand tag _ hp hgained hfree, reply_atBlock]
  · rfl
  · exact h.hand

end

/-- Settles O35: an unknown group, and the three requests on a known one, EVENT-MASK by whether its NOTICE is sent. -/
theorem eventRequestsReadClearAndMask : Obligations.EventRequestsReadClearAndMask := by
  unfold Obligations.EventRequestsReadClearAndMask
  refine fun tag n h s hs hpend => ⟨fun hn => hs.exec_events_badGroup tag hn h, fun g hg => ⟨?read, ?clear, ?silent, ?gained⟩⟩
  case read =>
    rw [hs.exec_eventsRead, doEventsRead_of_group hg, reply_atBlock hs.hand]
    rfl
  case clear => exact fun x p hx hp => hs.exec_eventsClear_of_group tag hg hpend hx hp
  case silent => exact fun x p hx hp hsilent => hs.exec_eventMask_silent tag hg hx hp hsilent
  case gained => exact fun x p hx hp hgained hfree => hs.exec_eventMask_gained tag hg hx hp hgained hfree

/-! ### SENSOR-CONFIG (R170) -/

theorem doSensorConfig_of_bad {n e c w : Byte} (h : 5 < n.toNat ∨ 2 < e.toNat ∨ 1 < c.toNat ∨ 1 < w.toNat) (tag : Byte) (s : State) :
    doSensorConfig tag n e c w s = refuse 0x1C tag .badValue s := by
  unfold doSensorConfig
  split
  case h_1 hn he hc hw =>
    obtain h | h | h | h := h
    · rw [sensorOfByte_of_gt h] at hn; cases hn
    · rw [edgeOfNat_of_gt h] at he; cases he
    · rw [boolOfByte_of_gt h] at hc; cases hc
    · rw [boolOfByte_of_gt h] at hw; cases hw
  case h_2 => rfl

theorem doSensorConfig_of_good {n e c w : Byte} {sensor : Sensor} {edge : EdgeSelect} (hn : sensorOfByte n = some sensor)
    (he : edgeOfNat e.toNat = some edge) (hc : c.toNat ≤ 1) (hw : w.toNat ≤ 1) (tag : Byte) (r : Request)
    (s : State) :
    doSensorConfig tag n e c w (atBlock tag r s)
      = reply 0x1C tag [yesNo (sensorLevel s.mon.levels sensor)]
          (atBlock tag r
            { s with
              mon := { s.mon with config := s.mon.config.set { edge := edge, change := c == 1, wake := w == 1 } sensor } }) := by
  simp only [doSensorConfig, hn, he, boolOfByte_of_le hc, boolOfByte_of_le hw]
  rfl

/-! ### LAMP (R178) -/

theorem checkField_of_bad {α : Type} {parse : Byte → Option α} {f : Option Byte} (h : ∃ b ∈ f, parse b = none) :
    checkField parse f = none := by
  obtain ⟨b, rfl, hb⟩ := h
  simp [checkField, hb]

theorem checkField_lampFunction {f : Option Byte} (h : ∀ b ∈ f, b.toNat ≤ 4) :
    checkField lampFunctionOfByte f = some (f.bind lampFunctionOfByte) := by
  cases f with
  | none => rfl
  | some b =>
    obtain ⟨a, ha⟩ := lampFunctionOfByte_of_le (h b rfl)
    simp [checkField, ha]

theorem checkField_bool {f : Option Byte} (h : ∀ b ∈ f, b.toNat ≤ 1) : checkField boolOfByte f = some (f.map (· == 1)) := by
  cases f with
  | none => rfl
  | some b => simp [checkField, boolOfByte_of_le (h b rfl)]

theorem doLamp_of_bad {n : Byte} {assignment level : Option Byte} {s : State} (hlines : s.mon.lamps.length = 4)
    (h : 3 < n.toNat ∨ (∃ a ∈ assignment, 4 < a.toNat) ∨ ∃ v ∈ level, 1 < v.toNat) (tag : Byte) :
    doLamp tag n assignment level s = refuse 0x1D tag .badValue s := by
  unfold doLamp
  split
  case h_1 hl ha hv =>
    obtain h | ⟨a, hm, h⟩ | ⟨v, hm, h⟩ := h
    · rw [List.getElem?_eq_none (by omega)] at hl; cases hl
    · rw [checkField_of_bad ⟨a, hm, lampFunctionOfByte_of_gt h⟩] at ha; cases ha
    · rw [checkField_of_bad ⟨v, hm, boolOfByte_of_gt h⟩] at hv; cases hv
  case h_2 => rfl

/-- The level of an automatic line is its function's; a HOST line takes the level of the request, or keeps its own. -/
theorem lampAfter_eq (s : State) (assignment : Option LampFunction) (level : Option Byte) (l : Lamp) {a : LampFunction} {d driven : Bool}
    (ha : a = assignment.getD l.assignment)
    (hd : d = match lampValue s a with | some v => v | none => l.level)
    (hdriven : driven = level.elim d fun v => if a = .host then v == 1 else d) :
    lampAfter s assignment (level.map (· == 1)) l = { assignment := a, level := driven } := by
  have hdriveLamp : driveLamp s { l with assignment := a } = { assignment := a, level := d } := by
    rw [driveLamp, hd]
    cases lampValue s a <;> rfl
  subst hdriven
  dsimp only [lampAfter]
  rw [← ha, hdriveLamp]
  by_cases hhost : a = .host
  · cases level <;> simp [hhost]
  · cases level <;> simp [hhost]

theorem doLamp_of_good {n : Byte} {assignment level : Option Byte} {s : State} {l l' : Lamp} (hl : s.mon.lamps[n.toNat]? = some l)
    (ha : ∀ b ∈ assignment, b.toNat ≤ 4) (hv : ∀ v ∈ level, v.toNat ≤ 1)
    (hl' : lampAfter s (assignment.bind lampFunctionOfByte) (level.map (· == 1)) l = l') (tag : Byte) (r : Request) :
    doLamp tag n assignment level (atBlock tag r s)
      = reply 0x1D tag [l'.assignment.byte, yesNo l'.level, lampApplied l' (level.map (· == 1))]
          (atBlock tag r { s with mon := { s.mon with lamps := s.mon.lamps.set n.toNat l' } }) := by
  subst hl'
  simp only [doLamp, checkField_lampFunction ha, checkField_bool hv, show (atBlock tag r s).mon.lamps[n.toNat]? = some l from hl]
  rfl

/-! ### The lamp lines at the end of an event (R177, Table 9-6) -/

theorem driveLamp_of_host {l : Lamp} (h : l.assignment = .host) (s : State) : driveLamp s l = l := by
  obtain ⟨a, level⟩ := l
  obtain rfl : a = .host := h
  rfl

theorem lampValue_noticeCheck (s : State) (f : LampFunction) : lampValue (noticeCheck s) f = lampValue s f := by
  dsimp only [noticeCheck]
  split <;> rfl

theorem level_driveLamp {s : State} {l : Lamp} {v : Bool} (h : lampValue s l.assignment = some v) : (driveLamp s l).level = v := by
  simp [driveLamp, h]

/-- An automatic line shows its function as the event ends. -/
theorem level_of_mem_lamps_eventEnd {before : Nat} {s : State} {l : Lamp} (h : l ∈ (eventEnd before s).mon.lamps) {v : Bool}
    (hv : lampValue (eventEnd before s) l.assignment = some v) : l.level = v := by
  dsimp only [eventEnd] at h hv
  generalize drainCheck _ = u at h hv
  rw [noticeCheck_mon] at h
  rw [lampValue_noticeCheck] at hv
  obtain ⟨k, -, rfl⟩ := List.mem_map.mp h
  exact level_driveLamp (s := u) hv

theorem assignments_eventEnd (before : Nat) (s : State) :
    (eventEnd before s).mon.lamps.map (·.assignment) = s.mon.lamps.map (·.assignment) :=
  congrArg (fun k => k.mon.assignments) (eventEnd_kept before s)

/-! ### The requests, taken at once -/

section
variable {s : State} (h : Taken s) (tag : Byte)
include h

theorem Taken.exec_sensorConfig (n e c w : Byte) :
    exec (.sensorConfig tag n e c w) s = .next (doSensorConfig tag n e c w (atBlock tag (.sensorConfig n e c w) s)) :=
  congrArg Host.Outcome.next (hostRequest_taken h tag _)

theorem Taken.exec_lamp (n : Byte) (assignment level : Option Byte) :
    exec (.lamp tag n assignment level) s = .next (doLamp tag n assignment level (atBlock tag (.lamp n assignment level) s)) :=
  congrArg Host.Outcome.next (hostRequest_taken h tag _)

theorem Taken.exec_beep (n : Byte) : exec (.beep tag n) s = .next (doBeep tag n (atBlock tag (.beep n) s)) :=
  congrArg Host.Outcome.next (hostRequest_taken h tag _)

end

/-- Settles O36: the two requests by the ranges of their fields, a HOST line driven, and the lines at the end of an event by function. -/
theorem sensorConfigAndLamp : Obligations.SensorConfigAndLamp := by
  unfold Obligations.SensorConfigAndLamp
  refine ⟨fun tag n e c w s hs => ⟨fun hbad => ?sensorBad, fun sensor edge hn he hc hw => ?sensor⟩,
    fun tag n assignment level s hs hlines => ⟨fun hbad => ?lampBad, fun l a d driven hl ha hv hass hd hdriven => ?lamp⟩,
    fun s l hl => driveLamp_of_host hl s, ?lines⟩
  case sensorBad =>
    rw [hs.exec_sensorConfig, doSensorConfig_of_bad hbad]
    exact hs.next_refuse_atBlock tag _ _ _
  case sensor =>
    rw [hs.exec_sensorConfig, doSensorConfig_of_good hn he hc hw, reply_atBlock]
    · rfl
    · exact hs.hand
  case lampBad =>
    rw [hs.exec_lamp, doLamp_of_bad (s := atBlock tag _ s) hlines hbad]
    exact hs.next_refuse_atBlock tag _ _ _
  case lamp =>
    have hl' := lampAfter_eq (driven := driven) s _ level l hass hd (by cases level <;> exact hdriven)
    rw [hs.exec_lamp, doLamp_of_good hl ha hv hl', reply_atBlock]
    · cases level <;> rfl
    · exact hs.hand
  case lines =>
    rintro before s t rfl
    refine ⟨assignments_eventEnd before s, fun l hl => ?_⟩
    refine ⟨fun hf => ?fault, fun hf => ?flagged, fun hf => ?high, fun hf => ?standby⟩
    all_goals
      rw [level_of_mem_lamps_eventEnd hl (congrArg (lampValue _) hf)]
      simp

/-! ### The beeper (R176, Table 9-5) -/

theorem doBeep_of_bad {n : Byte} (h : 3 < n.toNat) (tag : Byte) (s : State) : doBeep tag n s = refuse 0x1E tag .badValue s := by
  simp only [doBeep, patternOfByte_of_gt h]

theorem doBeep_of_pattern {n : Byte} {p : BeepPattern} (h : patternOfByte n = some p) (tag : Byte) (s : State) :
    doBeep tag n s = reply 0x1E tag [yesNo s.mon.beeperEnable] (beep p s) := by
  simp only [doBeep, h]

theorem beep_atBlock_of_enabled {s : State} (h : s.mon.beeperEnable = true) (p : BeepPattern) (tag : Byte) (r : Request) :
    beep p (atBlock tag r s)
      = atBlock tag r
          { s with
            mon :=
              { s.mon with
                beeper := some { pattern := p, tone := true, tonesLeft := p.shape.2.2 - 1, timer := p.shape.1 } } } :=
  if_pos h

theorem beep_of_disabled {s : State} (h : s.mon.beeperEnable = false) (p : BeepPattern) : beep p s = s :=
  if_neg (by simp [h])

theorem Beeper.next_of_last {b : Beeper} (h : b.tone = true) (h0 : b.tonesLeft = 0) : b.next = none := by
  simp [Beeper.next, h, h0]

theorem Beeper.next_of_tone {b : Beeper} (h : b.tone = true) (h0 : 0 < b.tonesLeft) :
    b.next = some { b with tone := false, timer := b.pattern.shape.2.1 } := by
  simp [Beeper.next, h, Nat.ne_of_gt h0]

theorem Beeper.next_of_gap {b : Beeper} (h : b.tone = false) :
    b.next = some { b with tone := true, tonesLeft := b.tonesLeft - 1, timer := b.pattern.shape.1 } := by
  simp [Beeper.next, h]

theorem exec_beeperTimerExpiry (s : State) :
    exec .beeperTimerExpiry s = .next { s with mon := { s.mon with beeper := s.mon.beeper.bind Beeper.next } } := rfl

/-- Settles O37: BEEP by its pattern byte and the beeper's enable, the expiry by the phase of the pattern. -/
theorem beeperPlaysItsPattern : Obligations.BeeperPlaysItsPattern := by
  unfold Obligations.BeeperPlaysItsPattern
  refine ⟨fun tag n s hs => ⟨fun hbad => ?bad, fun p tone tones hshape => ?good⟩, fun s => ⟨fun hb => ?silent, fun b hb => ?expiry⟩⟩
  case bad =>
    rw [hs.exec_beep, doBeep_of_bad hbad]
    exact hs.next_refuse_atBlock tag _ _ _
  case good =>
    have hp : patternOfByte n = some p ∧ p.shape.1 = tone ∧ p.shape.2.2 = tones := by
      obtain ⟨rfl, rfl, rfl, rfl⟩ | ⟨rfl, rfl, rfl, rfl⟩ | ⟨rfl, rfl, rfl, rfl⟩ | ⟨rfl, rfl, rfl, rfl⟩ := hshape
      all_goals exact ⟨rfl, rfl, rfl⟩
    obtain ⟨hn, rfl, rfl⟩ := hp
    rw [hs.exec_beep, doBeep_of_pattern hn]
    refine ⟨fun hon => ?enabled, fun hoff => ?disabled⟩
    case enabled =>
      rw [beep_atBlock_of_enabled hon, show (atBlock tag (.beep n) s).mon.beeperEnable = true from hon, reply_atBlock]
      · rfl
      · exact hs.hand
    case disabled =>
      rw [beep_of_disabled (s := atBlock tag _ s) hoff, show (atBlock tag (.beep n) s).mon.beeperEnable = false from hoff]
      exact congrArg _ (reply_atBlock hs.hand tag _ _ _)
  case silent =>
    rw [exec_beeperTimerExpiry, hb, Option.bind_none, ← hb]
  case expiry =>
    rw [exec_beeperTimerExpiry, hb, Option.bind_some]
    exact ⟨fun ht h0 => by rw [Beeper.next_of_last ht h0], fun ht h0 => by rw [Beeper.next_of_tone ht h0],
      fun ht => by rw [Beeper.next_of_gap ht]⟩

end Sys2Proof.Machine
end

section
/-! PROOFS. The bounds of the Control Link (R184, R186, R187, R189): which operations leave the link alone, how a frame in hand and the
places of the output queue go through an event and an answer, what each request and each event makes of them; then O11. -/

namespace Sys2Proof.Machine

/-! ### Operations on the text that leave the link alone -/

@[simp] theorem link_withdrawWord (n : Nat) (s : State) : (withdrawWord n s).link = s.link := rfl

@[simp] theorem link_cutWords (ns : List Nat) (s : State) : (cutWords ns s).link = s.link := by
  unfold cutWords
  induction ns generalizing s with
  | nil => rfl
  | cons n ns ih => exact ih _

@[simp] theorem link_dropLines (n : Nat) (s : State) : (dropLines n s).link = s.link := link_cutWords _ _

@[simp] theorem link_handOff (w : WordRef) (codes : List Nat) (before : Option Nat) (d : Nat) (s : State) :
    (handOff w codes before d s).link = s.link := by
  dsimp only [handOff]
  repeat' split
  all_goals simp

@[simp] theorem link_completeWord (d : Nat) (s : State) : (completeWord d s).link = s.link := by
  unfold completeWord
  split
  · rfl
  · exact link_handOff _ _ _ _ _

@[simp] theorem link_endOpenSegment (s : State) : (endOpenSegment s).link = s.link := link_setLatchIf _ _ _

@[simp] theorem link_trackEntry (x : Cell) (s : State) : (trackEntry x s).link = s.link := by
  have hopen : (if s.store.openWord.isNone then openNewWord s else s).link = s.link := by split <;> rfl
  dsimp only [trackEntry]
  split
  · split
    · exact hopen
    · split <;> exact hopen
  · split
    · rfl
    · exact link_completeWord _ s

@[simp] theorem link_bellCheck (x : Cell) (s : State) : (bellCheck x s).link = s.link := by
  dsimp only [bellCheck]
  split <;> simp

@[simp] theorem link_enterCell (k : KeyClass) (r : KeyRec) (s : State) : (enterCell k r s).link = s.link := by
  dsimp only [enterCell]
  split <;> simp

@[simp] theorem link_enterReturn (para : Bool) (s : State) : (enterReturn para s).link = s.link := by
  simp [enterReturn]

@[simp] theorem link_untrack (x : Cell) (before : List Cell) (s : State) : (untrack x before s).link = s.link := by
  unfold untrack
  repeat' split
  all_goals rfl

@[simp] theorem link_removeLast (s : State) : (removeLast s).link = s.link := by
  unfold removeLast
  split
  · rfl
  · exact link_untrack _ _ s

@[simp] theorem link_removeCells (n : Nat) (s : State) : (removeCells n s).link = s.link := by
  induction n generalizing s with
  | zero => rfl
  | succ n ih => exact (ih _).trans (link_removeLast s)

@[simp] theorem link_crossBack (l : Line) (r : Cell) (s : State) : (crossBack l r s).link = s.link :=
  link_untrack _ _ _

@[simp] theorem link_applyLayout (c : LayoutChange) (s : State) : (applyLayout c s).link = s.link :=
  link_judgeWord _ _

@[simp] theorem link_spellOff (s : State) : (spellOff s).link = s.link := by
  simp [spellOff]

@[simp] theorem link_spellOn (s : State) : (spellOn s).link = s.link := by
  simp [spellOn]

@[simp] theorem link_queueListSave (s : State) : (queueListSave s).link = s.link := by
  unfold queueListSave
  split <;> rfl

@[simp] theorem link_withUserList (ws : List (List Nat)) (s : State) : (withUserList ws s).link = s.link :=
  link_queueListSave _

@[simp] theorem link_dropOpenWord (s : State) : (dropOpenWord s).link = s.link := by
  dsimp only [dropOpenWord]
  split <;> rfl

@[simp] theorem link_discardText (s : State) : (discardText s).1.link = s.link := by
  simp [discardText]

/-! ### Operations on the memories and the mechanism that leave the link alone -/

@[simp] theorem link_lookupEnds (found : Bool) (s : State) : (lookupEnds found s).link = s.link := by
  dsimp only [lookupEnds]
  repeat' split
  all_goals simp

@[simp] theorem link_directoryEnds (k : Lookup) (address : Nat) (s : State) : (directoryEnds k address s).link = s.link := by
  unfold directoryEnds
  repeat' split
  all_goals simp

@[simp] theorem link_pageVerified (n : Nat) (bytes : List Byte) (s : State) : (pageVerified n bytes s).link = s.link := by
  unfold pageVerified
  split <;> rfl

@[simp] theorem link_stallMotion (s : State) : (stallMotion s).link = s.link := by
  unfold stallMotion homeFail motionFault
  split <;> simp

@[simp] theorem link_homingDone (s : State) : (homingDone s).link = s.link := by
  unfold homingDone
  split <;> simp

@[simp] theorem link_settleMotion (s : State) : (settleMotion s).link = s.link := by
  unfold settleMotion
  repeat' split
  all_goals rfl

@[simp] theorem link_homingCarriageEdge (h : Homing) (s : State) : (homingCarriageEdge h s).link = s.link := by
  unfold homingCarriageEdge homeFail motionFault
  repeat' split
  all_goals simp

@[simp] theorem link_homingWheelEdge (h : Homing) (s : State) : (homingWheelEdge h s).link = s.link := by
  unfold homingWheelEdge homeFail motionFault
  repeat' split
  all_goals simp

@[simp] theorem link_carriageEdge (s : State) : (carriageEdge s).link = s.link := by
  dsimp only [carriageEdge]
  repeat' split
  all_goals simp

@[simp] theorem link_wheelEdge (s : State) : (wheelEdge s).link = s.link := by
  unfold wheelEdge
  repeat' split
  all_goals simp

@[simp] theorem link_encoderEdge (a : Axis) (s : State) : (encoderEdge a s).link = s.link := by
  unfold encoderEdge
  split <;> simp

@[simp] theorem link_motionSettled (s : State) : (motionSettled s).link = s.link := by
  dsimp only [motionSettled]
  split <;> simp

@[simp] theorem link_parkMoveDone (s : State) : (parkMoveDone s).link = s.link := by
  unfold parkMoveDone
  split <;> rfl

@[simp] theorem link_pulseEnd (s : State) : (pulseEnd s).link = s.link := by
  unfold pulseEnd
  split <;> rfl

@[simp] theorem link_retractDone (s : State) : (retractDone s).link = s.link := by
  unfold retractDone
  split <;> rfl

@[simp] theorem link_hammerHome (s : State) : (hammerHome s).link = s.link := by
  unfold hammerHome
  split <;> simp

@[simp] theorem link_tapeRisen (s : State) : (tapeRisen s).link = s.link := by
  unfold tapeRisen
  split <;> rfl

@[simp] theorem link_lifterDone (which : Lifter) (s : State) : (lifterDone which s).link = s.link := by
  unfold lifterDone
  repeat' split
  all_goals simp

@[simp] theorem link_paperFeedEnd (s : State) : (paperFeedEnd s).link = s.link := by
  dsimp only [paperFeedEnd]
  split <;> rfl

@[simp] theorem link_platenStep (s : State) : (platenStep s).link = s.link := by
  dsimp only [platenStep]
  repeat' split
  all_goals simp

@[simp] theorem link_latchEdge (n : Sensor) (level : Bool) (s : State) : (latchEdge n level s).link = s.link :=
  link_setLatchIf _ _ _

@[simp] theorem link_sensorActs (n : Sensor) (level : Bool) (s : State) : (sensorActs n level s).link = s.link := by
  unfold sensorActs coverOpens paperArrives paperLeaves homeSensor indexSensor
  repeat' split
  all_goals simp

/-! ### A frame in hand and the bounds of the link -/

/-- The bounds of the Control Link with the request in hand, if there is one (R184, R186, R187, R189). -/
def LinkFits (hand : Option Frame) (s : State) : Prop :=
  s.link.hand = hand ∧ s.link.input.length ≤ Config.maxInput ∧ s.link.errors ≤ 255 ∧ places s.link ≤ Config.outputPlaces

theorem linkBounds_iff_linkFits {s : State} : LinkBounds s ↔ LinkFits none s := Iff.rfl

namespace LinkFits
variable {hand : Option Frame} {f : Frame} {s t : State}

theorem of_link (h : LinkFits hand s) (ht : t.link = s.link) : LinkFits hand t := by
  rw [LinkFits, ht]
  exact h

theorem places_le (h : LinkFits hand s) : places s.link ≤ Config.outputPlaces := by
  obtain ⟨-, -, -, hplaces⟩ := h
  exact hplaces

/-- What keeps `State.kept` and the places keeps the bounds. -/
theorem of_kept (h : LinkFits hand s) (hk : t.kept = s.kept) (hp : places t.link ≤ Config.outputPlaces) : LinkFits hand t := by
  obtain ⟨hhand, hinput, herrors, -⟩ := h
  have kHand : t.link.hand = s.link.hand := congrArg Kept.hand hk
  have kInput : t.link.input = s.link.input := congrArg Kept.input hk
  have kErrors : t.link.errors = s.link.errors := congrArg Kept.errors hk
  exact ⟨kHand ▸ hhand, kInput ▸ hinput, kErrors ▸ herrors, hp⟩

theorem noticeCheck (h : LinkFits hand s) : LinkFits hand (noticeCheck s) :=
  h.of_kept (kept_noticeCheck s) (places_noticeCheck h.places_le)

theorem eventEnd {before : Nat} (h : LinkFits hand s) : LinkFits hand (eventEnd before s) :=
  h.of_kept (eventEnd_kept before s) (places_eventEnd before h.places_le)

theorem eventEnd_of_link {before : Nat} (h : LinkFits hand s) (ht : t.link = s.link) : LinkFits hand (Machine.eventEnd before t) :=
  (h.of_link ht).eventEnd

theorem saveEnds {good : Bool} (h : LinkFits hand s) : LinkFits hand (saveEnds good s) :=
  h.of_kept (kept_saveEnds good s) (places_saveEnds good s ▸ h.places_le)

/-- A frame taken in hand reserves a place that was free (R187). -/
theorem takeInHand (h : LinkFits none s) (hfree : 0 < freePlaces s.link) (f : Frame) :
    LinkFits (some f) (takeInHand f s) := by
  obtain ⟨hhand, hinput, herrors, -⟩ := h
  have hlt : places s.link < 8 := Nat.lt_of_sub_pos hfree
  refine ⟨rfl, hinput, herrors, ?_⟩
  simp only [places, reservedPlaces, hhand, takeInHand_output, takeInHand_hand, takeInHand_drain, takeInHand_save, Config.outputPlaces,
    Option.isSome_none, Option.isSome_some, Bool.toNat_false, Bool.toNat_true] at *
  omega

/-- An answer fills the place that the request in hand had reserved (R187, R189). -/
theorem answer {g : OutFrame} (h : LinkFits (some f) s) : LinkFits none (answer g s) := by
  obtain ⟨hhand, hinput, herrors, hplaces⟩ := h
  refine ⟨rfl, hinput, herrors, ?_⟩
  simp only [places, reservedPlaces, hhand, answer_output, answer_hand, answer_drain, answer_save, List.length_append, List.length_singleton,
    Option.isSome_none, Option.isSome_some, Bool.toNat_false, Bool.toNat_true] at *
  omega

theorem reply {kind tag : Byte} {payload : List Byte} (h : LinkFits (some f) s) : LinkFits none (reply kind tag payload s) :=
  h.answer

theorem refuse {kind tag : Byte} {code : RefusalCode} (h : LinkFits (some f) s) : LinkFits none (refuse kind tag code s) :=
  h.answer

/-- A DRAIN that waits keeps the place of the request in hand (R60, R190). -/
theorem toDrain (h : LinkFits (some f) s) (hd : s.link.drain = none) (tag : Byte) :
    LinkFits none { s with link := { s.link with drain := some tag, hand := none } } := by
  obtain ⟨hhand, hinput, herrors, hplaces⟩ := h
  refine ⟨rfl, hinput, herrors, ?_⟩
  simp only [places, reservedPlaces, hhand, hd, Option.isSome_none, Option.isSome_some, Bool.toNat_false, Bool.toNat_true] at *
  omega

/-- A SAVE-SETTINGS that waits keeps the place of the request in hand (R155, R190). -/
theorem toSave (h : LinkFits (some f) s) (hv : s.link.save = none) (tag : Byte) (m : MemoryLink) :
    LinkFits none { s with mem := m, link := { s.link with save := some tag, hand := none } } := by
  obtain ⟨hhand, hinput, herrors, hplaces⟩ := h
  refine ⟨rfl, hinput, herrors, ?_⟩
  simp only [places, reservedPlaces, hhand, hv, Option.isSome_none, Option.isSome_some, Bool.toNat_false, Bool.toNat_true] at *
  omega

/-- A waiting DRAIN that a reset refuses fills its own place, and the waiting frames go (R193, R62). -/
theorem resetLink (h : LinkFits hand s) (ht : t.link = resetLink s.link) : LinkFits hand t := by
  obtain ⟨hhand, -, herrors, hplaces⟩ := h
  rw [LinkFits, ht]
  unfold Machine.resetLink
  split
  case h_1 => exact ⟨hhand, Nat.zero_le _, herrors, hplaces⟩
  case h_2 tag hd =>
    refine ⟨hhand, Nat.zero_le _, herrors, ?_⟩
    simp only [places, reservedPlaces, hd, List.length_append, List.length_singleton, Option.isSome_none, Option.isSome_some,
      Bool.toNat_false, Bool.toNat_true] at *
    omega

end LinkFits

/-! ### The requests, one in hand -/

section
variable {s : State} {f : Frame} (h : LinkFits (some f) s) (tag : Byte)
include h

theorem linkFits_enterKeys (recs : List KeyRec) : LinkFits (some f) (enterKeys recs s).2.2 := by
  induction recs generalizing s with
  | nil => exact h
  | cons r rs ih =>
    unfold enterKeys
    split
    case h_1 e _ =>
      dsimp only [refuseKey]
      split
      · exact h
      · exact (h.of_link (by simp)).noticeCheck
    case h_2 k _ =>
      refine ih (h.eventEnd_of_link ?_)
      split <;> simp

theorem linkFits_doKeys (recs : List KeyRec) : LinkFits none (doKeys tag recs s) := by
  unfold doKeys
  split
  · exact (linkFits_enterKeys h recs).answer
  · exact h.answer

theorem linkFits_correctionFull (kind : Byte) : LinkFits none (correctionFull kind tag s) :=
  (LinkFits.noticeCheck (h.of_link (by simp))).answer

theorem linkFits_eraseLast (kind : Byte) (n : Nat) : LinkFits none (eraseLast kind tag n s) := by
  dsimp only [eraseLast]
  repeat' split
  · exact h.answer
  · exact linkFits_correctionFull h tag kind
  · exact (h.eventEnd_of_link (link_removeCells n s)).answer

theorem linkFits_doCorrect : LinkFits none (doCorrect tag s) := by
  dsimp only [doCorrect, correctAcross]
  repeat' split
  · exact h.answer
  · exact linkFits_correctionFull h tag _
  · exact (h.eventEnd_of_link (link_crossBack _ _ s)).answer
  · exact linkFits_eraseLast h tag _ _

theorem linkFits_doIndex (direction count : Byte) : LinkFits none (doIndex tag direction count s) := by
  dsimp only [doIndex]
  repeat' split
  · exact h.refuse
  · exact h.refuse
  · exact h.refuse
  · exact (h.eventEnd_of_link (by simp)).reply

theorem linkFits_doSetMargins (left right : Half) : LinkFits none (doSetMargins tag left right s) := by
  unfold doSetMargins
  split
  · exact LinkFits.reply (h.eventEnd_of_link rfl)
  · exact h.refuse

theorem linkFits_doSetLayout (fields : LayoutFields) : LinkFits none (doSetLayout tag fields s) := by
  unfold doSetLayout
  split
  · exact h.refuse
  · exact (h.eventEnd_of_link (link_applyLayout _ s)).reply

theorem linkFits_doSetTab (position : Half) (kind : Byte) : LinkFits none (doSetTab tag position kind s) := by
  dsimp only [doSetTab]
  repeat' split
  · exact h.refuse
  · exact h.refuse
  · exact (h.of_link (withTabs_link _ s)).reply
  · exact h.refuse
  · exact (h.of_link (withTabs_link _ s)).reply

theorem linkFits_doClearTab (position : Half) : LinkFits none (doClearTab tag position s) := by
  dsimp only [doClearTab]
  split
  · exact (h.of_link (withTabs_link _ s)).reply
  · exact h.refuse

theorem linkFits_doSpellEnable (b : Byte) : LinkFits none (doSpellEnable tag b s) := by
  dsimp only [doSpellEnable]
  split
  · exact h.refuse
  · refine LinkFits.reply (h.eventEnd_of_link ?_)
    repeat' split
    all_goals simp

omit h in
theorem linkFits_acceptWord {hand : Option Frame} {t : State} (ht : LinkFits hand t) (w : Flagged) :
    LinkFits hand (acceptWord w t) :=
  (ht.of_link (link_applyVerdict _ _ _ t)).eventEnd

theorem linkFits_doSpellAccept : LinkFits none (doSpellAccept tag s) := by
  unfold doSpellAccept
  split
  · exact h.refuse
  · exact (linkFits_acceptWord h _).reply

theorem linkFits_doSpellAdd : LinkFits none (doSpellAdd tag s) := by
  dsimp only [doSpellAdd]
  repeat' split
  · exact h.refuse
  · exact (linkFits_acceptWord h _).answer
  · exact h.refuse
  · exact (linkFits_acceptWord (h.of_link (link_withUserList _ s)) _).reply

theorem linkFits_doUserWordRead (n : Byte) : LinkFits none (doUserWordRead tag n s) := by
  unfold doUserWordRead
  repeat' split
  · exact h.refuse
  · exact h.refuse
  · exact h.reply

theorem linkFits_doUserWordDelete (codes : List Byte) : LinkFits none (doUserWordDelete tag codes s) := by
  dsimp only [doUserWordDelete]
  repeat' split
  · exact h.refuse
  · exact (h.eventEnd_of_link (link_withUserList _ s)).reply
  · exact h.refuse

theorem linkFits_doDrain : LinkFits none (doDrain tag s) := by
  have hmarked : LinkFits (some f) (markDrain s) := h.of_link (markDrain_link s)
  dsimp only [doDrain]
  split
  case isTrue => exact h.refuse
  case isFalse hd =>
    have hnone : (markDrain s).link.drain = none := by simpa using hd
    split
    · exact (hmarked.toDrain hnone tag).of_link (refreshIdle_link _)
    · exact hmarked.reply

theorem linkFits_doSaveSettings : LinkFits none (doSaveSettings tag s) := by
  unfold doSaveSettings
  split
  case isTrue => exact h.refuse
  case isFalse hv => exact (h.toSave (by simpa using hv) tag _).eventEnd

theorem linkFits_doWheelAssign (id : Byte) : LinkFits none (doWheelAssign tag id s) := by
  dsimp only [doWheelAssign]
  repeat' split
  · exact h.refuse
  · exact h.refuse
  · exact h.refuse
  · exact ((h.reply).of_link (link_fitWheel _ _ _ _)).eventEnd

theorem linkFits_doResume : LinkFits none (doResume tag s) := by
  unfold doResume
  split
  · exact h.refuse
  · exact ((h.reply).of_link (link_fitWheel _ _ _ _)).eventEnd

theorem linkFits_doDiscard : LinkFits none (doDiscard tag s) := by
  dsimp only [doDiscard]
  split
  · exact h.refuse
  · exact (h.eventEnd_of_link (link_discardText s)).reply.eventEnd_of_link (link_fitWheel _ _ _ _)

theorem linkFits_doRecover : LinkFits none (doRecover tag s) := by
  dsimp only [doRecover]
  split
  · exact ((h.reply).of_link (link_homeOrInterlock _ _)).eventEnd
  · exact h.refuse

theorem linkFits_doDisplayOverlay (timeout first : Byte) (codes : List Byte) :
    LinkFits none (doDisplayOverlay tag timeout first codes s) := by
  dsimp only [doDisplayOverlay]
  repeat' split
  all_goals exact (h.of_link rfl).answer

theorem linkFits_doDisplayRelease : LinkFits none (doDisplayRelease tag s) := by
  unfold doDisplayRelease
  split <;> exact (h.of_link rfl).answer

theorem linkFits_doEventsRead (group : Byte) : LinkFits none (doEventsRead tag group s) := by
  unfold doEventsRead
  split <;> exact h.answer

theorem linkFits_doEventsClear (group : Byte) (set : Half) : LinkFits none (doEventsClear tag group set s) := by
  dsimp only [doEventsClear]
  split
  · exact h.refuse
  · exact LinkFits.reply (LinkFits.noticeCheck (h.of_link rfl))

theorem linkFits_doEventMask (group : Byte) (set : Half) : LinkFits none (doEventMask tag group set s) := by
  dsimp only [doEventMask]
  split
  · exact h.refuse
  · exact LinkFits.reply (LinkFits.noticeCheck (h.of_link rfl))

theorem linkFits_doSensorConfig (sensor edge change wakeup : Byte) :
    LinkFits none (doSensorConfig tag sensor edge change wakeup s) := by
  unfold doSensorConfig
  split <;> exact (h.of_link rfl).answer

theorem linkFits_doLamp (line : Byte) (assignment level : Option Byte) : LinkFits none (doLamp tag line assignment level s) := by
  unfold doLamp
  split <;> exact (h.of_link rfl).answer

theorem linkFits_doBeep (pattern : Byte) : LinkFits none (doBeep tag pattern s) := by
  unfold doBeep
  split
  · exact h.refuse
  · exact (h.of_link (link_beep _ s)).reply

theorem linkFits_doReset : LinkFits none (doReset tag s) := by
  have hacked : LinkFits none (reply 0x20 tag [] s) := h.reply
  refine LinkFits.eventEnd (LinkFits.resetLink hacked ?_)
  exact (link_homeOrInterlock _ _).trans (congrArg resetLink (link_stopMotion _))

/-- Every request ends with the link within its bounds and nothing in hand: one answer fills the reserved place, or the place is kept for
the deferred reply (R187, R190). -/
theorem linkFits_serve (woke : Bool) (r : Request) : LinkFits none (serve tag woke r s) := by
  cases r with
  | identify | status => exact h.reply
  | clearAllTabs => exact (h.of_link (withTabs_link _ s)).reply
  | keys recs => exact linkFits_doKeys h tag recs
  | correct => exact linkFits_doCorrect h tag
  | wordErase | lineErase => exact linkFits_eraseLast h tag _ _
  | index d c => exact linkFits_doIndex h tag d c
  | setMargins l r => exact linkFits_doSetMargins h tag l r
  | setLayout fields => exact linkFits_doSetLayout h tag fields
  | setTab p k => exact linkFits_doSetTab h tag p k
  | clearTab p => exact linkFits_doClearTab h tag p
  | spellEnable b => exact linkFits_doSpellEnable h tag b
  | spellAccept => exact linkFits_doSpellAccept h tag
  | spellAdd => exact linkFits_doSpellAdd h tag
  | userWordRead n => exact linkFits_doUserWordRead h tag n
  | userWordDelete cs => exact linkFits_doUserWordDelete h tag cs
  | drain => exact linkFits_doDrain h tag
  | wheelAssign n => exact linkFits_doWheelAssign h tag n
  | resume => exact linkFits_doResume h tag
  | discard => exact linkFits_doDiscard h tag
  | recover => exact linkFits_doRecover h tag
  | displayOverlay o p cs => exact linkFits_doDisplayOverlay h tag o p cs
  | displayRelease => exact linkFits_doDisplayRelease h tag
  | eventsRead g => exact linkFits_doEventsRead h tag g
  | eventsClear g m => exact linkFits_doEventsClear h tag g m
  | eventMask g m => exact linkFits_doEventMask h tag g m
  | sensorConfig n e c w => exact linkFits_doSensorConfig h tag n e c w
  | lamp n a l => exact linkFits_doLamp h tag n a l
  | beep p => exact linkFits_doBeep h tag p
  | saveSettings => exact linkFits_doSaveSettings h tag
  | reset => exact linkFits_doReset h tag

end

/-! ### The receiver, the input buffer and the taking of a request -/

section
variable {s : State} (h : LinkFits none s)
include h

theorem linkFits_frameError : LinkFits none (frameError s) := by
  obtain ⟨hhand, hinput, -, hplaces⟩ := h
  exact ⟨hhand, hinput, Nat.min_le_left _ _, hplaces⟩

/-- Waking ends the transmitter's count of frames queued before standby, which is no bound (R180, R181). -/
theorem linkFits_wake : LinkFits none (wake s) := by
  have hcount : LinkFits none { s with link := { s.link with standbyTx := 0 } } := h
  exact hcount.of_link (link_homeOrInterlock _ _)

theorem linkFits_startByteEvent : LinkFits none (startByteEvent s) := by
  unfold startByteEvent
  split
  · exact (linkFits_wake h).eventEnd
  · exact h

theorem linkFits_startFrame : LinkFits none (startFrame s) :=
  linkFits_startByteEvent (s := { s with link := { s.link with receiver := _, rxMark := false } }) h

theorem linkFits_bufferFrame (f : Frame) : LinkFits none (bufferFrame f s) := by
  obtain ⟨hhand, hinput, -, hplaces⟩ := id h
  unfold bufferFrame
  split
  case isTrue hroom =>
    obtain ⟨-, -, herrors, -⟩ := h
    have hjoined : (s.link.input ++ [f]).length ≤ Config.maxInput := by
      rw [List.length_append, List.length_singleton]
      exact hroom
    exact ⟨hhand, hjoined, herrors, hplaces⟩
  case isFalse => exact ⟨hhand, hinput, Nat.min_le_left _ _, hplaces⟩

theorem linkFits_pushValue (v : Byte) (body : List Byte) (woke : Bool) : LinkFits none (pushValue v body woke s) := by
  dsimp only [pushValue, completeFrame]
  repeat' split
  · exact linkFits_frameError h
  · exact linkFits_bufferFrame (s := { s with link := { s.link with receiver := .hunting, rxMark := false } }) h _
  · exact linkFits_frameError h
  · exact h

theorem linkFits_receive (b : Byte) : LinkFits none (receive b s) := by
  unfold receive
  repeat' split
  · exact linkFits_startFrame h
  · exact h
  · exact linkFits_startFrame (linkFits_frameError h)
  · exact linkFits_pushValue h _ _ _
  · exact linkFits_frameError h
  · exact h
  · exact linkFits_pushValue h _ _ _

theorem linkFits_receiveBroken : LinkFits none (receiveBroken s) := by
  unfold receiveBroken
  split
  · exact h
  · exact linkFits_frameError h

theorem linkFits_frameTimeout : LinkFits none (frameTimeout s) := by
  unfold frameTimeout
  split
  · exact (linkFits_frameError h).noticeCheck
  · exact h

theorem linkFits_tickFrame : LinkFits none (tickFrame s) := by
  unfold tickFrame
  repeat' split
  · exact linkFits_frameError h
  · exact h
  · exact h

theorem linkFits_hostRequest (tag : Byte) (r : Request) : LinkFits none (hostRequest tag r s) := by
  have hstart : LinkFits none (startByteEvent s) := linkFits_startByteEvent h
  dsimp only [hostRequest]
  split
  case isTrue htake =>
    rw [Bool.and_eq_true] at htake
    exact linkFits_serve (hstart.takeInHand (canTake_free htake.2) _) tag _ r
  case isFalse => exact (linkFits_bufferFrame hstart _).noticeCheck

theorem linkFits_takeOldest : LinkFits none (takeOldest s) := by
  unfold takeOldest
  split
  case h_1 => exact h
  case h_2 f rest hinput =>
    split
    case isFalse => exact h
    case isTrue htake =>
      have hrest : LinkFits none { s with link := { s.link with input := rest } } := by
        obtain ⟨hhand, hlength, herrors, hplaces⟩ := h
        rw [hinput] at hlength
        exact ⟨hhand, Nat.le_of_succ_le hlength, herrors, hplaces⟩
      have hheld := hrest.takeInHand (canTake_free htake) f
      unfold serveFrame
      split
      · exact linkFits_serve hheld _ _ _
      · exact hheld.refuse
      · exact hheld.refuse

/-- A frame sent frees its place (R189). -/
theorem linkFits_frameSent : LinkFits none (frameSent s) := by
  obtain ⟨hhand, hinput, herrors, hplaces⟩ := id h
  have hshorter : (s.link.output.drop 1).length ≤ s.link.output.length := by
    rw [List.length_drop]
    exact Nat.sub_le _ _
  have hdrop : (s.link.output.drop 1).length + reservedPlaces s.link ≤ Config.outputPlaces :=
    Nat.le_trans (Nat.add_le_add_right hshorter _) hplaces
  unfold frameSent
  repeat' split
  · exact ⟨hhand, hinput, herrors, hdrop⟩
  · exact h
  · exact ⟨hhand, hinput, herrors, hdrop⟩

/-! ### The memory bus, the mechanism, the sensors and the timers -/

theorem linkFits_endHeaderRead (bytes : List Byte) : LinkFits none (endHeaderRead bytes s) := by
  unfold endHeaderRead
  split
  · exact h.eventEnd_of_link (link_headerEnds _ s)
  · exact h

theorem linkFits_endTableLoad (bytes : List Byte) : LinkFits none (endTableLoad bytes s) := by
  dsimp only [endTableLoad]
  repeat' split
  · exact h.eventEnd_of_link (link_loadSucceeds _ _ _)
  · exact h.eventEnd_of_link (link_loadFails _ _)
  · exact h
  · exact h

theorem linkFits_endDirectoryRead (bytes : List Byte) : LinkFits none (endDirectoryRead bytes s) := by
  unfold endDirectoryRead
  repeat' split
  · exact h.eventEnd_of_link (link_directoryEnds _ _ _)
  · exact h
  · exact h

theorem linkFits_endBucketRead (bytes : List Byte) : LinkFits none (endBucketRead bytes s) := by
  unfold endBucketRead
  repeat' split
  · exact h
  · exact h
  · exact h.eventEnd_of_link (link_lookupEnds _ _)
  · exact h

theorem linkFits_endRecordRead (bytes : List Byte) : LinkFits none (endRecordRead bytes s) := by
  unfold endRecordRead
  split
  · exact h.eventEnd_of_link (link_recordReadEnds _ s)
  · exact h

theorem linkFits_endPageWrite : LinkFits none (endPageWrite s) := by
  unfold endPageWrite
  split
  · exact h.eventEnd_of_link rfl
  · exact h

theorem linkFits_readbackEnds (p : SaveProgress) (bytes : List Byte) : LinkFits none (readbackEnds p bytes s) := by
  have hverified (n : Nat) : LinkFits none (pageVerified n bytes s) := h.of_link (link_pageVerified n bytes s)
  dsimp only [readbackEnds]
  repeat' split
  · exact (hverified _).saveEnds
  · exact hverified _
  · exact h.saveEnds
  · exact h

theorem linkFits_endPageReadback (bytes : List Byte) : LinkFits none (endPageReadback bytes s) := by
  unfold endPageReadback
  repeat' split
  · exact (linkFits_readbackEnds (s := freeBus s) h _ bytes).eventEnd
  · exact h
  · exact h

theorem linkFits_abandonTransaction : LinkFits none (abandonTransaction s) := by
  dsimp only [abandonTransaction]
  repeat' split
  · exact h
  · exact h.of_link (link_headerEnds _ _)
  · exact h.of_link (link_loadFails _ _)
  · exact h.of_link (link_spellingLost _)
  · exact h.of_link (link_recordReadEnds _ _)
  all_goals exact LinkFits.saveEnds (h.of_link rfl)

theorem linkFits_tickMemory (busMoved : Bool) : LinkFits none (tickMemory busMoved s) := by
  unfold tickMemory
  repeat' split
  · exact h
  · exact linkFits_abandonTransaction h
  · exact h

theorem linkFits_supervisionTick (busMoved : Bool) : LinkFits none (supervisionTick busMoved s) := by
  unfold supervisionTick
  split
  · exact h
  · exact (linkFits_tickMemory (linkFits_tickFrame (h.of_link (link_tickMotion s))) busMoved).eventEnd

theorem linkFits_stallMarked : LinkFits none (stallMarked s) := by
  unfold stallMarked
  split
  · exact h.eventEnd_of_link (link_stallMotion s)
  · exact h

theorem linkFits_homingWheelEnd (id : Nat) : LinkFits none (homingWheelEnd id s) := by
  unfold homingWheelEnd
  repeat' split
  · exact h
  · exact h
  all_goals exact h.eventEnd_of_link (link_homingDone _)

theorem linkFits_sensorChange (n : Sensor) (level : Bool) : LinkFits none (sensorChange n level s) := by
  have hlatched (v : SensorLevels) : LinkFits none (latchEdge n level { s with mon := { s.mon with levels := v } }) :=
    h.of_link (link_latchEdge _ _ _)
  dsimp only [sensorChange]
  repeat' split
  · exact h
  · exact (linkFits_wake (hlatched _)).eventEnd
  · exact (hlatched _).noticeCheck
  · exact (hlatched _).eventEnd_of_link (link_sensorActs _ _ _)

theorem linkFits_enterStandby : LinkFits none (enterStandby s) := by
  refine LinkFits.of_link (s := { noticeCheck _ with link := { (noticeCheck _).link with standbyTx := _ } }) ?_ rfl
  exact LinkFits.noticeCheck (h.of_link rfl)

theorem linkFits_idleExpiry : LinkFits none (idleExpiry s) := by
  unfold idleExpiry
  repeat' split
  · exact h
  · exact linkFits_enterStandby h
  · exact h

theorem linkFits_standbyAtZero : LinkFits none (standbyAtZero s) := by
  unfold standbyAtZero
  repeat' split
  · exact h
  · exact linkFits_enterStandby h
  · exact h

theorem linkFits_blinkExpiry : LinkFits none (blinkExpiry s) := by
  unfold blinkExpiry
  split <;> exact h

theorem linkFits_sendBegin : LinkFits none (sendBegin s) := by
  unfold sendBegin
  split <;> exact h

theorem linkFits_overlayExpiry : LinkFits none (overlayExpiry s) := by
  unfold overlayExpiry
  split <;> exact h

omit h in
theorem linkFits_powerOn (bselHigh : Bool) (levels : SensorLevels) (s : State) : LinkFits none (powerOn bselHigh levels s) := by
  have hreset : LinkFits none State.reset := ⟨rfl, Nat.zero_le _, Nat.zero_le _, Nat.zero_le _⟩
  have hbaud : LinkFits none { State.reset with link := { State.reset.link with highBaud := bselHigh } } := hreset
  exact hbaud.eventEnd_of_link rfl

end

/-! ### Every command and every step -/

theorem exec_keeps_linkFits {s t : State} (h : LinkFits none s) (c : Instr) (ht : exec c s = .next t) : LinkFits none t := by
  cases hr : asRequest c with
  | some p =>
    rw [exec_of_asRequest hr] at ht
    exact Host.Outcome.next.inj ht ▸ linkFits_hostRequest h p.1 p.2
  | none =>
    cases c with
    | identify | status | keys | correct | wordErase | lineErase | index | setMargins | setLayout | setTab | clearTab | clearAllTabs
    | spellAccept | spellAdd | userWordRead | userWordDelete | drain | wheelAssign | discard | recover | displayOverlay
    | displayRelease | eventsRead | eventsClear | eventMask | sensorConfig | lamp | beep | saveSettings | reset => cases hr
    | powerOnReset bsel levels => exact Host.Outcome.next.inj ht ▸ linkFits_powerOn bsel levels s
    | receiveByte b => exact Host.Outcome.next.inj ht ▸ (linkFits_receive h b).noticeCheck
    | brokenByte => exact Host.Outcome.next.inj ht ▸ (linkFits_receiveBroken h).noticeCheck
    | partialFrameTimeout => exact Host.Outcome.next.inj ht ▸ linkFits_frameTimeout h
    | takeRequest => exact Host.Outcome.next.inj ht ▸ linkFits_takeOldest h
    | frameSent => exact Host.Outcome.next.inj ht ▸ linkFits_frameSent h
    | headerReadEnd bytes => exact Host.Outcome.next.inj ht ▸ linkFits_endHeaderRead h bytes
    | tableLoadEnd bytes => exact Host.Outcome.next.inj ht ▸ linkFits_endTableLoad h bytes
    | directoryReadEnd bytes => exact Host.Outcome.next.inj ht ▸ linkFits_endDirectoryRead h bytes
    | bucketReadEnd bytes => exact Host.Outcome.next.inj ht ▸ linkFits_endBucketRead h bytes
    | nvRecordReadEnd bytes => exact Host.Outcome.next.inj ht ▸ linkFits_endRecordRead h bytes
    | pageWriteEnd => exact Host.Outcome.next.inj ht ▸ linkFits_endPageWrite h
    | pageReadbackEnd bytes => exact Host.Outcome.next.inj ht ▸ linkFits_endPageReadback h bytes
    | supervisionTick moved => exact Host.Outcome.next.inj ht ▸ linkFits_supervisionTick h moved
    | stall => exact Host.Outcome.next.inj ht ▸ linkFits_stallMarked h
    | encoderEdge a => exact Host.Outcome.next.inj ht ▸ h.eventEnd_of_link (link_encoderEdge a s)
    | motionSettled => exact Host.Outcome.next.inj ht ▸ h.eventEnd_of_link (link_motionSettled s)
    | hammerPulseEnd => exact Host.Outcome.next.inj ht ▸ h.eventEnd_of_link (link_pulseEnd s)
    | hammerHome => exact Host.Outcome.next.inj ht ▸ h.eventEnd_of_link (link_hammerHome s)
    | lifterDone which => exact Host.Outcome.next.inj ht ▸ h.eventEnd_of_link (link_lifterDone which s)
    | platenStep => exact Host.Outcome.next.inj ht ▸ h.eventEnd_of_link (link_platenStep s)
    | parkMoveDone => exact Host.Outcome.next.inj ht ▸ h.eventEnd_of_link (link_parkMoveDone s)
    | wheelHomingEnd id => exact Host.Outcome.next.inj ht ▸ linkFits_homingWheelEnd h _
    | sensorLevelChange n level => exact Host.Outcome.next.inj ht ▸ linkFits_sensorChange h n level
    | idleTimerExpiry => exact Host.Outcome.next.inj ht ▸ linkFits_idleExpiry h
    | standbyEntry => exact Host.Outcome.next.inj ht ▸ linkFits_standbyAtZero h
    | blinkTimerExpiry => exact Host.Outcome.next.inj ht ▸ linkFits_blinkExpiry h
    | displaySendBegin => exact Host.Outcome.next.inj ht ▸ linkFits_sendBegin h
    | overlayTimeout => exact Host.Outcome.next.inj ht ▸ linkFits_overlayExpiry h
    | displaySendEnd | gapTimerExpiry | beeperTimerExpiry => exact Host.Outcome.next.inj ht ▸ h

/-- Settles O11: an empty queue idles, and every command keeps the bounds, because whatever fills a place of the output queue takes a
free one or frees the place reserved for it. -/
theorem linkBoundsKeptByEveryStep : Obligations.LinkBoundsKeptByEveryStep := by
  unfold Obligations.LinkBoundsKeptByEveryStep
  intro s t h hstep
  rw [linkBounds_iff_linkFits] at h ⊢
  unfold step at hstep
  split at hstep
  case h_1 => exact Host.Outcome.next.inj hstep ▸ h
  case h_2 c rest _ =>
    have hrest : LinkFits none { s with pending := rest } := h
    exact exec_keeps_linkFits hrest c hstep

end Sys2Proof.Machine
end

section
/-! PROOFS. The payloads of requests (R188, R195, Tables 10-3 and 11-2): key records and presence sets there and back, two-byte numbers,
the lengths that each reader takes; then O5 and O9. -/

namespace Sys2Proof.Machine

/-! ### Two-byte numbers, the flags of a key record and presence sets (R195) -/

@[simp] theorem le16_lowByte_highByte (h : Half) : le16 (lowByte h) (highByte h) = h := by
  have happend : h.extractLsb' 8 8 ++ h.extractLsb' 0 8 = h.extractLsb' 0 (8 + 8) :=
    BitVec.extractLsb'_append_extractLsb'_eq_extractLsb' rfl
  exact happend.trans BitVec.extractLsb'_eq_self

/-- Eight flags as the bits of a byte. -/
theorem getLsbD_eight_flags : ∀ (a b c d e f g h : Bool) (i : Fin 8),
    (BitVec.ofNat 8
      (a.toNat + 2 * b.toNat + 4 * c.toNat + 8 * d.toNat + 16 * e.toNat + 32 * f.toNat + 64 * g.toNat + 128 * h.toNat)).getLsbD i
      = [a, b, c, d, e, f, g, h][i] := by
  decide

/-- Three flags as the lowest bits of a byte. -/
theorem getLsbD_three_flags (a b c : Bool) (i : Fin 3) :
    (BitVec.ofNat 8 (a.toNat + 2 * b.toNat + 4 * c.toNat)).getLsbD i = [a, b, c][i] := by
  revert a b c i
  decide

/-- The bits of a key record's second byte are its three flags (Table 11-2). -/
theorem getLsbD_attributeByte (r : KeyRec) (i : Fin 3) :
    (attributeByte r).getLsbD i = [r.bold, r.underline, r.release][i] :=
  getLsbD_three_flags _ _ _ i

theorem decodeKeys_encodeKeys (rs : List KeyRec) : decodeKeys (encodeKeys rs) = some rs := by
  induction rs with
  | nil => rfl
  | cons r rs ih =>
    have hbold : (attributeByte r).getLsbD 0 = r.bold := getLsbD_attributeByte r 0
    have hunderline : (attributeByte r).getLsbD 1 = r.underline := getLsbD_attributeByte r 1
    have hrelease : (attributeByte r).getLsbD 2 = r.release := getLsbD_attributeByte r 2
    simp only [encodeKeys, decodeKeys, ih, Option.map_some, hbold, hunderline, hrelease]

/-- A field that is sent as 0 when absent is read back by its presence bit (R195). -/
theorem present_getD {set : Byte} {i : Nat} {o : Option Byte} (h : set.getLsbD i = o.isSome) : present set i (o.getD 0) = o := by
  unfold present
  rw [h]
  cases o <;> rfl



theorem getLsbD_layoutPresence (f : LayoutFields) (i : Fin 8) :
    (layoutPresence f).getLsbD i
      = [f.alignment.isSome, f.lineSpacing.isSome, f.impression.isSome, f.releaseMode.isSome, f.decimalChar.isSome,
          f.beeperEnable.isSome, f.bellWidth.isSome, f.idleMinutes.isSome][i] :=
  getLsbD_eight_flags _ _ _ _ _ _ _ _ i

theorem layoutPayload_payload (f : LayoutFields) : layoutPayload (Request.payload (.setLayout f)) = some (.setLayout f) := by
  have hbit := getLsbD_layoutPresence f
  simp only [Request.payload, layoutPayload, present_getD (i := 0) (o := f.alignment) (hbit 0),
    present_getD (i := 1) (o := f.lineSpacing) (hbit 1), present_getD (i := 2) (o := f.impression) (hbit 2),
    present_getD (i := 3) (o := f.releaseMode) (hbit 3), present_getD (i := 4) (o := f.decimalChar) (hbit 4),
    present_getD (i := 5) (o := f.beeperEnable) (hbit 5), present_getD (i := 6) (o := f.bellWidth) (hbit 6),
    present_getD (i := 7) (o := f.idleMinutes) (hbit 7)]

/-- The two fields of LAMP by their presence set (Table 11-2). -/
theorem getLsbD_lampPresence : ∀ a b : Bool,
    (BitVec.ofNat 8 (a.toNat + 2 * b.toNat)).getLsbD 0 = a ∧ (BitVec.ofNat 8 (a.toNat + 2 * b.toNat)).getLsbD 1 = b := by
  decide

/-! ### A request and its payload -/

theorem decodeRequest_of_reader {kind : Byte} {payload : List Byte} {read : List Byte → Option Request} {r : Request}
    (hread : payloadReader kind.toNat = some read) (hr : read payload = some r) : decodeRequest kind payload = .ok r := by
  simp [decodeRequest, hread, hr]

theorem decodeRequest_payload (r : Request) : decodeRequest r.kind r.payload = .ok r := by
  cases r with
  | identify | status | correct | wordErase | lineErase | clearAllTabs | spellAccept | spellAdd | drain | resume | discard | recover
  | displayRelease | saveSettings | reset => rfl
  | spellEnable | userWordRead | wheelAssign | eventsRead | beep | index | sensorConfig | userWordDelete | displayOverlay => rfl
  | keys recs => exact decodeRequest_of_reader rfl (congrArg (Option.map Request.keys) (decodeKeys_encodeKeys recs))
  | setLayout f => exact decodeRequest_of_reader rfl (layoutPayload_payload f)
  | setMargins l r =>
    refine decodeRequest_of_reader rfl ?_
    simp only [Request.payload, fourBytes, le16_lowByte_highByte]
  | setTab p k =>
    refine decodeRequest_of_reader rfl ?_
    simp only [Request.payload, threeBytes, le16_lowByte_highByte]
  | clearTab p =>
    refine decodeRequest_of_reader rfl ?_
    simp only [Request.payload, twoBytes, le16_lowByte_highByte]
  | eventsClear g m | eventMask g m =>
    refine decodeRequest_of_reader rfl ?_
    simp only [Request.payload, threeBytes, le16_lowByte_highByte]
  | lamp n a l =>
    obtain ⟨hassignment, hlevel⟩ := getLsbD_lampPresence a.isSome l.isSome
    refine decodeRequest_of_reader rfl ?_
    simp only [Request.payload, fourBytes, present_getD hassignment, present_getD hlevel]

/-- Settles O5: request by request; the fields that are no plain bytes are key records, two-byte numbers and presence sets. -/
theorem requestPayloadRoundTrip : Obligations.RequestPayloadRoundTrip := by
  unfold Obligations.RequestPayloadRoundTrip
  exact fun r _ => decodeRequest_payload r

/-! ### The kind, then the length (R188, Table 10-3) -/

/-- A reader of the requests of one kind takes exactly the payloads of the permitted lengths. -/
def ReadsKind (read : List Byte → Option Request) (kind : Nat) (permitted : Nat → Bool) : Prop :=
  ∀ payload : List Byte,
    (permitted payload.length = false → read payload = none)
    ∧ (permitted payload.length = true → ∃ r, read payload = some r ∧ r.kind.toNat = kind)

namespace ReadsKind

theorem noBytes (r : Request) : ReadsKind (noBytes r) r.kind.toNat fun n => decide (n = 0)
  | [] => ⟨nofun, fun _ => ⟨r, rfl, rfl⟩⟩
  | _ :: _ => ⟨fun _ => rfl, nofun⟩

theorem oneByte {f : Byte → Request} {kind : Nat} (hk : ∀ a, (f a).kind.toNat = kind) :
    ReadsKind (oneByte f) kind fun n => decide (n = 1)
  | [] => ⟨fun _ => rfl, nofun⟩
  | [a] => ⟨nofun, fun _ => ⟨f a, rfl, hk a⟩⟩
  | _ :: _ :: _ => ⟨fun _ => rfl, nofun⟩

theorem twoBytes {f : Byte → Byte → Request} {kind : Nat} (hk : ∀ a b, (f a b).kind.toNat = kind) :
    ReadsKind (twoBytes f) kind fun n => decide (n = 2)
  | [] | [_] => ⟨fun _ => rfl, nofun⟩
  | [a, b] => ⟨nofun, fun _ => ⟨f a b, rfl, hk a b⟩⟩
  | _ :: _ :: _ :: _ => ⟨fun _ => rfl, nofun⟩

theorem threeBytes {f : Byte → Byte → Byte → Request} {kind : Nat} (hk : ∀ a b c, (f a b c).kind.toNat = kind) :
    ReadsKind (threeBytes f) kind fun n => decide (n = 3)
  | [] | [_] | [_, _] => ⟨fun _ => rfl, nofun⟩
  | [a, b, c] => ⟨nofun, fun _ => ⟨f a b c, rfl, hk a b c⟩⟩
  | _ :: _ :: _ :: _ :: _ => ⟨fun _ => rfl, nofun⟩

theorem fourBytes {f : Byte → Byte → Byte → Byte → Request} {kind : Nat} (hk : ∀ a b c d, (f a b c d).kind.toNat = kind) :
    ReadsKind (fourBytes f) kind fun n => decide (n = 4)
  | [] | [_] | [_, _] | [_, _, _] => ⟨fun _ => rfl, nofun⟩
  | [a, b, c, d] => ⟨nofun, fun _ => ⟨f a b c d, rfl, hk a b c d⟩⟩
  | _ :: _ :: _ :: _ :: _ :: _ => ⟨fun _ => rfl, nofun⟩

theorem layoutPayload : ReadsKind layoutPayload 0x09 fun n => decide (n = 9)
  | [] | [_] | [_, _] | [_, _, _] | [_, _, _, _] | [_, _, _, _, _] | [_, _, _, _, _, _] | [_, _, _, _, _, _, _]
  | [_, _, _, _, _, _, _, _] => ⟨fun _ => rfl, nofun⟩
  | [_, _, _, _, _, _, _, _, _] => ⟨nofun, fun _ => ⟨_, rfl, rfl⟩⟩
  | _ :: _ :: _ :: _ :: _ :: _ :: _ :: _ :: _ :: _ :: _ => ⟨fun _ => rfl, nofun⟩

theorem overlayPayload : ReadsKind overlayPayload 0x17 fun n => decide (2 ≤ n)
  | [] | [_] => ⟨fun _ => rfl, nofun⟩
  | t :: p :: cs => ⟨fun h => by simp at h, fun _ => ⟨.displayOverlay t p cs, rfl, rfl⟩⟩

end ReadsKind

/-- Key records are read from an even number of bytes. -/
theorem isSome_decodeKeys : ∀ payload : List Byte, (decodeKeys payload).isSome = decide (payload.length % 2 = 0)
  | [] => rfl
  | [_] => rfl
  | _ :: _ :: rest => by
    simp only [decodeKeys, Option.isSome_map, isSome_decodeKeys rest, List.length_cons]
    exact decide_eq_decide.mpr (by omega)

theorem readsKind_keys : ReadsKind (fun p => (decodeKeys p).map .keys) 0x03 fun n => decide (n % 2 = 0) := by
  intro payload
  have hsome := isSome_decodeKeys payload
  cases hkeys : decodeKeys payload with
  | none =>
    rw [hkeys] at hsome
    exact ⟨fun _ => congrArg (Option.map Request.keys) hkeys, fun h => absurd (hsome.trans h) nofun⟩
  | some recs =>
    rw [hkeys] at hsome
    exact ⟨fun h => absurd (hsome.trans h) nofun, fun _ => ⟨.keys recs, congrArg (Option.map Request.keys) hkeys, rfl⟩⟩

theorem payloadReader_of_unknown {n : Nat} (h : n = 0 ∨ 0x20 < n) : payloadReader n = none := by
  obtain rfl | h := h
  · rfl
  · obtain ⟨k, rfl⟩ := Nat.exists_eq_add_of_lt h
    rw [Nat.add_right_comm, Nat.add_comm]
    rfl

/-- Every kind of Table 10-3 has a reader, which takes the lengths that the table permits. -/
theorem payloadReader_of_kind {n : Nat} (h1 : 1 ≤ n) (h2 : n ≤ 0x20) :
    ∃ read, payloadReader n = some read ∧ ReadsKind read n (lengthPermitted n) := by
  match n, h1, h2 with
  | 0x03, _, _ => exact ⟨_, rfl, readsKind_keys⟩
  | 0x09, _, _ => exact ⟨_, rfl, .layoutPayload⟩
  | 0x11, _, _ => exact ⟨_, rfl, fun payload => ⟨nofun, fun _ => ⟨.userWordDelete payload, rfl, rfl⟩⟩⟩
  | 0x17, _, _ => exact ⟨_, rfl, .overlayPayload⟩
  | 0x0D, _, _ | 0x10, _, _ | 0x13, _, _ | 0x19, _, _ | 0x1E, _, _ => exact ⟨_, rfl, .oneByte fun _ => rfl⟩
  | 0x07, _, _ | 0x0B, _, _ => exact ⟨_, rfl, .twoBytes fun _ _ => rfl⟩
  | 0x0A, _, _ | 0x1A, _, _ | 0x1B, _, _ => exact ⟨_, rfl, .threeBytes fun _ _ _ => rfl⟩
  | 0x08, _, _ | 0x1C, _, _ | 0x1D, _, _ => exact ⟨_, rfl, .fourBytes fun _ _ _ _ => rfl⟩
  | 0x01, _, _ | 0x02, _, _ | 0x04, _, _ | 0x05, _, _ | 0x06, _, _ | 0x0C, _, _ | 0x0E, _, _ | 0x0F, _, _ | 0x12, _, _
  | 0x14, _, _ | 0x15, _, _ | 0x16, _, _ | 0x18, _, _ | 0x1F, _, _ | 0x20, _, _ => exact ⟨_, rfl, .noBytes _⟩
  | 0, h, _ => exact absurd h (Nat.not_succ_le_zero 0)
  | k + 33, _, h => omega

/-- Settles O9: a kind has a reader exactly in 0x01..0x20, and its reader takes exactly the permitted lengths. -/
theorem kindIsCheckedBeforeLength : Obligations.KindIsCheckedBeforeLength := by
  unfold Obligations.KindIsCheckedBeforeLength
  intro kind payload _
  refine ⟨fun hunknown => ?unknown, fun h1 h2 hlength => ?length, fun h1 h2 hlength => ?read⟩
  case unknown => simp [decodeRequest, payloadReader_of_unknown hunknown]
  case length =>
    obtain ⟨read, hread, htakes⟩ := payloadReader_of_kind h1 h2
    simp [decodeRequest, hread, (htakes payload).1 hlength]
  case read =>
    obtain ⟨read, hread, htakes⟩ := payloadReader_of_kind h1 h2
    obtain ⟨r, hr, hkind⟩ := (htakes payload).2 hlength
    exact ⟨r, decodeRequest_of_reader hread hr, BitVec.eq_of_toNat_eq hkind⟩

end Sys2Proof.Machine
end

section
/-! PROOFS. The receiver, the input buffer and the transmitter (R183 to R189): what a byte, a body value and a complete frame do, the
two-tick mark of a partial frame, the oldest frame taken or sent; then O6, O7, O8 and O10. -/

namespace Sys2Proof.Machine

/-! ### Bytes received while HUNTING or ASSEMBLING (R184) -/

theorem frameError_eq (s : State) :
    frameError s
      = { s with
          mon := { s.mon with latches := s.mon.latches.withLatch .frameError }
          link := { s.link with receiver := .hunting, rxMark := false, errors := min 255 (s.link.errors + 1) } } :=
  rfl

theorem startFrame_of_running {s : State} (h : s.mon.power = .running) :
    startFrame s = { restartIdle s with link := { s.link with receiver := .assembling [] false false, rxMark := false } } := by
  simp [startFrame, startByteEvent, restartIdle, fullIdle, h]

theorem startFrame_of_standby {s : State} (h : s.mon.power = .standby) :
    startFrame s = eventEnd s.store.unprinted
      (wake { s with link := { s.link with receiver := .assembling [] false true, rxMark := false } }) := by
  simp [startFrame, startByteEvent, h]

section
variable {b : Byte} {body : List Byte} {esc w : Bool} {s : State}

theorem receive_hunting_other (h : s.link.receiver = .hunting) (hb : b ≠ startByte) : receive b s = s := by
  simp only [receive, h, if_neg hb]

theorem receive_hunting_start (h : s.link.receiver = .hunting) : receive startByte s = startFrame s := by
  simp [receive, h]

theorem receiveBroken_hunting (h : s.link.receiver = .hunting) : receiveBroken s = s := by
  simp [receiveBroken, h]

theorem receiveBroken_assembling (h : s.link.receiver = .assembling body esc w) : receiveBroken s = frameError s := by
  simp [receiveBroken, h]

theorem receive_assembling_start (h : s.link.receiver = .assembling body esc w) :
    receive startByte s = startFrame (frameError s) := by
  simp [receive, h]

/-- The byte after an escape stands for the value 0x20 below it, when that is the start byte or the escape. -/
theorem receive_escaped (h : s.link.receiver = .assembling body true w) {v : Byte} (hv : v = startByte ∨ v = escapeByte) :
    receive (v + 0x20) s = pushValue v body w s := by
  obtain rfl | rfl := hv <;> simp [receive, h]

theorem receive_escaped_other (h : s.link.receiver = .assembling body true w) (h0 : b ≠ 0xD4) (h1 : b ≠ 0xF4) (h2 : b ≠ 0xF5) :
    receive b s = frameError s := by
  simp only [receive, h, if_neg h0, if_true, if_neg (not_or.mpr ⟨h1, h2⟩)]

theorem receive_escape (h : s.link.receiver = .assembling body false w) :
    receive escapeByte s = { s with link := { s.link with receiver := .assembling body true w, rxMark := false } } := by
  simp [receive, h]

theorem receive_value (h : s.link.receiver = .assembling body false w) (h0 : b ≠ startByte) (h1 : b ≠ escapeByte) :
    receive b s = pushValue b body w s := by
  simp only [receive, h, if_neg h0, if_neg h1, Bool.false_eq_true, if_false]

end

/-! ### Body values and complete frames (R184, R186) -/

section
variable {v : Byte} {body : List Byte} {w : Bool} {n : Nat} {s : State} (hn : ((body ++ [v]).headD 0).toNat = n)
include hn

theorem pushValue_of_bad_length (h : n < 2 ∨ 34 < n) : pushValue v body w s = frameError s := by
  subst hn
  exact if_pos h

variable (h2 : 2 ≤ n) (h34 : n ≤ 34)
include h2 h34

theorem pushValue_of_good_length :
    pushValue v body w s
      = if body.length + 1 = n + 2 then completeFrame (body ++ [v]) w s
        else { s with link := { s.link with receiver := .assembling (body ++ [v]) false w, rxMark := false } } := by
  have hgood : ¬(n < 2 ∨ 34 < n) := by omega
  subst hn
  simp only [pushValue, hgood, if_false, List.length_append, List.length_singleton]

theorem pushValue_of_partial (h : body.length + 1 ≠ n + 2) :
    pushValue v body w s
      = { s with link := { s.link with receiver := .assembling (body ++ [v]) false w, rxMark := false } } := by
  rw [pushValue_of_good_length hn h2 h34, if_neg h]

theorem pushValue_of_complete (h : body.length + 1 = n + 2) : pushValue v body w s = completeFrame (body ++ [v]) w s := by
  rw [pushValue_of_good_length hn h2 h34, if_pos h]

end

theorem completeFrame_of_bad_sum {body : List Byte} (h : byteSum body ≠ 0) (w : Bool) (s : State) :
    completeFrame body w s = frameError s :=
  if_neg h

/-- A frame whose values sum to 0 is its kind, its tag and what stands between them and the check byte. -/
theorem completeFrame_of_good_sum {body : List Byte} {v : Byte} (h : byteSum (body ++ [v]) = 0) (hlen : 3 ≤ body.length) (w : Bool)
    (s : State) :
    completeFrame (body ++ [v]) w s
      = bufferFrame { kind := body.getD 1 0, tag := body.getD 2 0, payload := body.drop 3, woke := w }
          { s with link := { s.link with receiver := .hunting, rxMark := false } } := by
  have hgetD (i : Nat) (hi : i < body.length) : (body ++ [v]).getD i 0 = body.getD i 0 := by
    rw [List.getD_eq_getElem?_getD, List.getD_eq_getElem?_getD, List.getElem?_append_left hi]
  have hkind : (body ++ [v]).getD 1 0 = body.getD 1 0 := hgetD 1 (by omega)
  have htag : (body ++ [v]).getD 2 0 = body.getD 2 0 := hgetD 2 (by omega)
  have hpayload : ((body ++ [v]).drop 3).dropLast = body.drop 3 := by
    rw [List.drop_append_of_le_length hlen, List.dropLast_concat]
  rw [completeFrame, if_pos h, hkind, htag, hpayload]

/-- Settles O6: a byte by the receiver's state and its value, a body value by the length byte, a complete frame by its sum and the room in
the input buffer. -/
theorem receiverTakesEachByte : Obligations.ReceiverTakesEachByte := by
  unfold Obligations.ReceiverTakesEachByte
  refine ⟨rfl, fun b body esc w s => ?byte, fun v body w n s hn => ?value⟩
  case byte =>
    refine ⟨frameError_eq s, startFrame_of_running, startFrame_of_standby, fun h => ⟨?_, fun hb => ?_, ?_⟩, fun h => ⟨?_, ?_⟩,
      fun h => ⟨?_, ?_, fun h0 h1 h2 => ?_⟩, fun h => ⟨?_, fun h0 h1 => ?_⟩⟩
    all_goals refine congrArg (fun t => Host.Outcome.next (noticeCheck t)) ?_
    · exact receiveBroken_hunting h
    · exact receive_hunting_other h hb
    · exact receive_hunting_start h
    · exact receiveBroken_assembling h
    · exact receive_assembling_start h
    · exact receive_escaped h (.inl rfl)
    · exact receive_escaped h (.inr rfl)
    · exact receive_escaped_other h h0 h1 h2
    · exact receive_escape h
    · exact receive_value h h0 h1
  case value =>
    refine ⟨pushValue_of_bad_length hn, pushValue_of_partial hn, fun h2 h34 hlen hsum => ?badSum,
      fun h2 h34 hlen hsum hroom => ?buffered, fun h2 h34 hlen hsum hfull => ?dropped⟩
    all_goals rw [pushValue_of_complete hn h2 h34 hlen]
    case badSum => exact completeFrame_of_bad_sum hsum w s
    all_goals rw [completeFrame_of_good_sum hsum (by omega)]
    case buffered => exact bufferFrame_of_room (w := { s with link := { s.link with receiver := .hunting, rxMark := false } }) hroom _
    case dropped => exact bufferFrame_of_full (w := { s with link := { s.link with receiver := .hunting, rxMark := false } }) hfull _

/-! ### The two-tick mark of a partial frame (R185) -/

theorem assembles_of_assembling {s : State} {body : List Byte} {esc w : Bool} (h : s.link.receiver = .assembling body esc w) :
    s.link.receiver.assembles = true := by
  rw [h]
  rfl

theorem frameTimeout_of_marked {s : State} (hp : s.mon.power = .running) (hr : s.link.receiver.assembles = true)
    (hm : s.link.rxMark = true) : frameTimeout s = noticeCheck (frameError s) := by
  simp [frameTimeout, hp, hr, hm]

theorem frameTimeout_of_idle {s : State} (h : s.mon.power = .standby ∨ s.link.receiver = .hunting ∨ s.link.rxMark = false) :
    frameTimeout s = s := by
  obtain h | h | h := h <;> simp [frameTimeout, Receiver.assembles, h]

theorem tickFrame_of_hunting {s : State} (h : s.link.receiver = .hunting) : tickFrame s = s := by
  simp [tickFrame, Receiver.assembles, h]

theorem tickFrame_of_unmarked {s : State} (h : s.link.receiver.assembles = true) (hm : s.link.rxMark = false) :
    tickFrame s = { s with link := { s.link with rxMark := true } } := by
  simp [tickFrame, h, hm]

theorem tickFrame_of_marked {s : State} (h : s.link.receiver.assembles = true) (hm : s.link.rxMark = true) :
    tickFrame s = frameError s := by
  simp [tickFrame, h, hm]

theorem tickMemory_of_free {s : State} (h : s.mem.transaction = none) (moved : Bool) : tickMemory moved s = s := by
  simp [tickMemory, h]

@[simp] theorem tickFrame_mem (s : State) : (tickFrame s).mem = s.mem := by
  unfold tickFrame
  repeat' split
  all_goals rfl

/-- Without a motion and a transaction a tick is its frame's part (R86, R151b, R185). -/
theorem exec_supervisionTick_frame {s : State} (hp : s.mon.power = .running) (hq : motionInProgress s.seq = false)
    (ht : s.mem.transaction = none) (moved : Bool) :
    exec (.supervisionTick moved) s = .next (eventEnd s.store.unprinted (tickFrame s)) := by
  have hmotion : tickMotion s = s := by simp [tickMotion, hq]
  have hmemory : tickMemory moved (tickFrame s) = tickFrame s := tickMemory_of_free (by simpa using ht) moved
  change Host.Outcome.next (supervisionTick moved s) = _
  simp only [supervisionTick, hp, hmotion, hmemory]

/-- Settles O7: the time-out and the tick by the power, the receiver and the frame's mark. -/
theorem tickEndsPartialFrames : Obligations.TickEndsPartialFrames := by
  unfold Obligations.TickEndsPartialFrames
  intro body esc w moved s
  refine ⟨fun hp hr hm => ?marked, fun h => ?idle, fun hp => ?standby, fun hp hq ht => ?running⟩
  case marked => exact congrArg _ (frameTimeout_of_marked hp (assembles_of_assembling hr) hm)
  case idle => exact congrArg _ (frameTimeout_of_idle h)
  case standby =>
    change Host.Outcome.next (supervisionTick moved s) = _
    simp only [supervisionTick, hp]
  case running =>
    rw [exec_supervisionTick_frame hp hq ht]
    exact ⟨fun hr => by rw [tickFrame_of_hunting hr],
      fun hr hm => by rw [tickFrame_of_unmarked (assembles_of_assembling hr) hm],
      fun hr hm => by rw [tickFrame_of_marked (assembles_of_assembling hr) hm]⟩

/-! ### The oldest frame taken (R187, R188) -/

theorem exec_takeRequest (s : State) : exec .takeRequest s = .next (takeOldest s) := rfl

theorem takeOldest_of_unable {s : State} (h : s.link.input = [] ∨ canTake s = false) : takeOldest s = s := by
  unfold takeOldest
  split
  case h_1 => rfl
  case h_2 f rest hinput =>
    have hno : canTake s = false := h.resolve_left (by simp [hinput])
    simp [hno]

theorem takeOldest_of_able {s : State} {f : Frame} {rest : List Frame} (hc : canTake s = true) (hi : s.link.input = f :: rest) :
    takeOldest s = serveFrame f { s with link := { s.link with input := rest } } := by
  simp [takeOldest, hi, hc]

theorem serveFrame_of_request {f : Frame} {r : Request} (h : decodeRequest f.kind f.payload = .ok r) (s : State) :
    serveFrame f s = serve f.tag f.woke r (takeInHand f s) := by
  simp [serveFrame, h]

/-- A frame refused by the link's own check leaves the hand again. -/
theorem refuse_takeInHand {s : State} (h : s.link.hand = none) (f : Frame) (code : RefusalCode) :
    refuse f.kind f.tag code (takeInHand f s)
      = { s with link := { s.link with output := s.link.output ++ [refuseFrame f.kind f.tag code] } } := by
  simp only [refuse, answer, takeInHand, ← h]

/-- Settles O8: the row by what waits and what the link can take, the frame taken by the link's own check. -/
theorem takeRequestServesOldestFrame : Obligations.TakeRequestServesOldestFrame := by
  unfold Obligations.TakeRequestServesOldestFrame
  intro f rest s
  refine ⟨fun h => congrArg _ (takeOldest_of_unable h), fun hc hi => ?_⟩
  have hhand : s.link.hand = none := canTake_hand hc
  rw [exec_takeRequest, takeOldest_of_able hc hi]
  refine ⟨fun r hr => ?served, fun he => ?unknownKind, fun he => ?badLength⟩
  case served => rw [serveFrame_of_request hr]; rfl
  case unknownKind =>
    simp only [serveFrame, he]
    exact congrArg _ (refuse_takeInHand (s := { s with link := { s.link with input := rest } }) hhand f .unknownKind)
  case badLength =>
    simp only [serveFrame, he]
    exact congrArg _ (refuse_takeInHand (s := { s with link := { s.link with input := rest } }) hhand f .badLength)

/-! ### The oldest frame sent (R180, R183, R189) -/

theorem txBytes_of_queued {s : State} {f : OutFrame} {rest : List OutFrame} (h : s.link.output = f :: rest)
    (hp : s.mon.power = .running ∨ 0 < s.link.standbyTx) : txBytes s = some (frameLine f.kind f.tag f.payload) := by
  unfold txBytes
  split
  case h_1 => simp [h, OutFrame.lineBytes]
  case h_2 hstandby =>
    have hleft : s.link.standbyTx ≠ 0 := Nat.ne_of_gt (hp.resolve_left (by simp [hstandby]))
    simp [h, hleft, OutFrame.lineBytes]

theorem txBytes_of_silent {s : State} (h : s.link.output = [] ∨ s.mon.power = .standby ∧ s.link.standbyTx = 0) :
    txBytes s = none := by
  unfold txBytes
  obtain h | ⟨hp, h⟩ := h
  · split <;> simp [h]
  · simp [hp, h]

/-- Settles O10: bytes on TXD and the place freed, by the power and the frames that standby still sends. -/
theorem sentFrameLeavesTheOutputQueue : Obligations.SentFrameLeavesTheOutputQueue := by
  unfold Obligations.SentFrameLeavesTheOutputQueue
  intro s
  refine ⟨fun f rest => txBytes_of_queued, txBytes_of_silent, fun hp => ?running, fun hp h0 => ?none, fun hp h0 => ?standby⟩
  all_goals refine congrArg Host.Outcome.next (?_ : frameSent s = _)
  case running => simp only [frameSent, hp, List.drop_one]
  case none => simp only [frameSent, hp, h0, if_true]
  case standby => simp only [frameSent, hp, Nat.ne_of_gt h0, if_false, List.drop_one]

end Sys2Proof.Machine
end

section
/-! PROOFS. A frame on the line (R183, R184): its escaped bytes rebuild its body value by value, its check byte completes it, and the frame
buffered is the request that was sent; then O4 and O3. -/

namespace Sys2Proof.Machine

/-! ### Bytes of a body received one at a time -/

/-- The end of an event changes nothing while the pending set is up to date (R173). -/
theorem noticeCheck_of_upToDate {s : State} (h : PendingUpToDate s) : noticeCheck s = s := by
  unfold PendingUpToDate at h
  have hsilent : s.mon.pendingSet.gained (pendingOf s.mon.latches s.mon.masks) = false := by
    simp [← h, PendingSet.gained]
  rw [noticeCheck_of_silent (.inl hsilent), ← h]

/-- The receiver holds some body values of a frame whose start byte found the part running; the last byte was the escape or not. -/
def withBody (body : List Byte) (escaped : Bool) (s : State) : State :=
  { s with link := { s.link with receiver := .assembling body escaped false, rxMark := false } }

theorem noticeCheck_withBody {s : State} (hs : PendingUpToDate s) (body : List Byte) (escaped : Bool) :
    noticeCheck (withBody body escaped s) = withBody body escaped s :=
  noticeCheck_of_upToDate (s := withBody body escaped s) hs

theorem takeBytes_cons (b : Byte) (bs : List Byte) (s : State) :
    takeBytes (b :: bs) s = takeBytes bs (noticeCheck (receive b s)) := rfl

theorem escapeBytes_cons_escaped {v : Byte} (h : v = startByte ∨ v = escapeByte) (vs : List Byte) :
    escapeBytes (v :: vs) = escapeByte :: (v + 0x20) :: escapeBytes vs := by
  rw [escapeBytes, if_pos h]

theorem escapeBytes_cons_plain {v : Byte} (h : ¬(v = startByte ∨ v = escapeByte)) (vs : List Byte) :
    escapeBytes (v :: vs) = v :: escapeBytes vs := by
  rw [escapeBytes, if_neg h]

/-- What a body value does looks neither at the receiver nor at its mark. -/
theorem pushValue_withBody (v : Byte) (body held : List Byte) (escaped : Bool) (s : State) :
    pushValue v body false (withBody held escaped s) = pushValue v body false s := by
  dsimp only [pushValue, completeFrame]
  repeat' split
  all_goals rfl

/-- A body value reaches the frame whether it is sent as it is or escaped (R183, R184). -/
theorem takeBytes_escapeBytes_cons {s : State} (hs : PendingUpToDate s) (v : Byte) (vs body : List Byte) :
    takeBytes (escapeBytes (v :: vs)) (withBody body false s) = takeBytes (escapeBytes vs) (noticeCheck (pushValue v body false s)) := by
  by_cases hv : v = startByte ∨ v = escapeByte
  · have hescape : receive escapeByte (withBody body false s) = withBody body true s := receive_escape rfl
    have hvalue : receive (v + 0x20) (withBody body true s) = pushValue v body false (withBody body true s) := receive_escaped rfl hv
    rw [escapeBytes_cons_escaped hv, takeBytes_cons, hescape, noticeCheck_withBody hs, takeBytes_cons, hvalue, pushValue_withBody]
  · obtain ⟨hstart, hescape⟩ := not_or.mp hv
    have hvalue : receive v (withBody body false s) = pushValue v body false (withBody body false s) :=
      receive_value rfl hstart hescape
    rw [escapeBytes_cons_plain hv, takeBytes_cons, hvalue, pushValue_withBody]

/-- Values short of the length byte's count join the body, one after the other. -/
theorem takeBytes_escapeBytes_append {s : State} (hs : PendingUpToDate s) {n : Nat} (h2 : 2 ≤ n) (h34 : n ≤ 34) (rest : List Byte) :
    ∀ values body : List Byte, ((body ++ values).headD 0).toNat = n → body.length + values.length < n + 2 →
      takeBytes (escapeBytes (values ++ rest)) (withBody body false s)
        = takeBytes (escapeBytes rest) (withBody (body ++ values) false s) := by
  intro values
  induction values with
  | nil => intro body _ _; rw [List.append_nil, List.nil_append]
  | cons v vs ih =>
    intro body hhead hlen
    rw [List.append_cons] at hhead ⊢
    rw [List.length_cons] at hlen
    have hhead' : ((body ++ [v]).headD 0).toNat = n := by
      cases body <;> exact hhead
    have hpush : pushValue v body false s = withBody (body ++ [v]) false s := pushValue_of_partial hhead' h2 h34 (by omega)
    rw [List.cons_append, takeBytes_escapeBytes_cons hs, hpush, noticeCheck_withBody hs]
    exact ih _ hhead (by rw [List.length_append, List.length_singleton]; omega)

/-! ### The frame -/

theorem byteSum_frameBody (kind tag : Byte) (payload : List Byte) : byteSum (frameBody kind tag payload) = 0 := by
  have hcheck (x : Byte) : byteSum [x] = x := BitVec.zero_add x
  rw [frameBody, byteSum_append, hcheck]
  exact BitVec.add_right_neg _

/-- The values of a frame's body before its check byte: length, kind, tag and payload (Table 11-1). -/
def frameHead (kind tag : Byte) (payload : List Byte) : List Byte :=
  BitVec.ofNat 8 (payload.length + 2) :: kind :: tag :: payload

theorem toNat_lengthByte {payload : List Byte} (hlen : payload.length ≤ 32) :
    (BitVec.ofNat 8 (payload.length + 2)).toNat = payload.length + 2 :=
  Nat.mod_eq_of_lt (by omega)

theorem frameLine_eq (kind tag : Byte) (payload : List Byte) :
    frameLine kind tag payload
      = startByte :: escapeBytes (frameHead kind tag payload ++ [- byteSum (frameHead kind tag payload)]) := rfl

/-- The start byte of a frame, in a running part that is HUNTING (R179, R184). -/
theorem takeBytes_startByte {s : State} (hs : PendingUpToDate s) (hpower : s.mon.power = .running)
    (hhunting : s.link.receiver = .hunting) (bs : List Byte) :
    takeBytes (startByte :: bs) s = takeBytes bs (withBody [] false (restartIdle s)) := by
  have hidle : PendingUpToDate (restartIdle s) := hs
  have hstart : receive startByte s = withBody [] false (restartIdle s) :=
    (receive_hunting_start hhunting).trans (startFrame_of_running hpower)
  rw [takeBytes_cons, hstart, noticeCheck_withBody hidle]

/-- The check byte of a frame buffers it (R184, R186). -/
theorem pushValue_checkByte {kind tag : Byte} {payload : List Byte} {s : State} (hlen : payload.length ≤ 32)
    (hroom : s.link.input.length < 4) :
    pushValue (- byteSum (frameHead kind tag payload)) (frameHead kind tag payload) false s
      = { s with
          link :=
            { s.link with
              receiver := .hunting, rxMark := false
              input := s.link.input ++ [{ kind := kind, tag := tag, payload := payload, woke := false }] } } := by
  have hhead (vs : List Byte) : ((frameHead kind tag payload ++ vs).headD 0).toNat = payload.length + 2 := toNat_lengthByte hlen
  have hsum : byteSum (frameHead kind tag payload ++ [- byteSum (frameHead kind tag payload)]) = 0 :=
    byteSum_frameBody kind tag payload
  have hlength : (frameHead kind tag payload).length = payload.length + 3 := rfl
  rw [pushValue_of_complete (hhead _) (by omega) (by omega) (by omega),
    completeFrame_of_good_sum hsum (by omega)]
  exact bufferFrame_of_room (w := { s with link := { s.link with receiver := .hunting, rxMark := false } }) hroom _

/-- Settles O4: the start byte restarts the countdown, the values before the check byte join the body, the check byte completes a frame that
sums to 0, and the input buffer has room. -/
theorem receiverReassemblesFrames : Obligations.ReceiverReassemblesFrames := by
  unfold Obligations.ReceiverReassemblesFrames
  intro kind tag payload s hlen hpower hhunting hroom hs
  have hidle : PendingUpToDate (restartIdle s) := hs
  have hlength : (frameHead kind tag payload).length = payload.length + 3 := rfl
  rw [frameLine_eq, takeBytes_startByte hs hpower hhunting,
    takeBytes_escapeBytes_append hidle (n := payload.length + 2) (by omega) (by omega) _ (frameHead kind tag payload) [] (toNat_lengthByte hlen)
      (by rw [List.length_nil]; omega),
    List.nil_append, takeBytes_escapeBytes_cons hidle, pushValue_checkByte (s := restartIdle s) hlen hroom,
    noticeCheck_of_upToDate]
  · simp only [escapeBytes, takeBytes, restartIdle_link, ← hhunting]
  · exact hs

/-! ### A frame of a request -/

theorem length_encodeKeys (rs : List KeyRec) : (encodeKeys rs).length = 2 * rs.length := by
  induction rs with
  | nil => rfl
  | cons r rs ih => simp only [encodeKeys, List.length_cons, ih]; omega

/-- A request that fits in a frame has a payload of at most 32 bytes (R183). -/
theorem length_payload_le {r : Request} (h : r.wellFormed = true) : r.payload.length ≤ 32 := by
  cases r with
  | keys recs =>
    have hrecs : recs.length ≤ 16 := of_decide_eq_true h
    have hlen : (encodeKeys recs).length = 2 * recs.length := length_encodeKeys recs
    change (encodeKeys recs).length ≤ 32
    omega
  | userWordDelete codes => exact of_decide_eq_true h
  | displayOverlay t p codes => exact Nat.add_le_add_right (of_decide_eq_true h : codes.length ≤ 30) 2
  | identify | status | correct | wordErase | lineErase | clearAllTabs | spellAccept | spellAdd | drain | resume | discard | recover
  | displayRelease | saveSettings | reset | spellEnable | userWordRead | wheelAssign | eventsRead | beep | index | sensorConfig
  | setLayout | setMargins | setTab | clearTab | eventsClear | eventMask | lamp => exact Nat.le_of_ble_eq_true rfl

/-- Settles O3: the frame arrives whole, is the only one that waits, is read as the request it was made from, and is served in the state in
which the request's row serves it. -/
theorem wireFrameActsAsRequestRow : Obligations.WireFrameActsAsRequestRow := by
  unfold Obligations.WireFrameActsAsRequestRow
  intro c tag r s hrow hwell htaken hs hhunting hmark
  obtain ⟨hpower, hinput, hcan⟩ := id htaken
  have harrives := receiverReassemblesFrames r.kind tag r.payload s (length_payload_le hwell) hpower hhunting
    (by rw [hinput]; exact Nat.zero_lt_succ _) hs
  refine ⟨_, harrives, ?_⟩
  rw [exec_takeRequest, exec_of_asRequest hrow, hostRequest_taken htaken, takeOldest_of_able (rest := []) (by exact hcan) (by rw [hinput]; rfl),
    serveFrame_of_request (decodeRequest_payload r)]
  simp only [atBlock, requestFrame, ← hmark, ← hinput]
  rfl

end Sys2Proof.Machine
end

section
/-! PROOFS. Reports and resets (R175, R192 to R194): the answers of IDENTIFY and STATUS, what the end of an event finds in a part whose text,
jobs and latches are gone, the warm reset block by block, and power-on; then O15, O55 and O56. -/

namespace Sys2Proof.Machine

/-! ### IDENTIFY and STATUS (R175, R192) -/

/-- Settles O15: each request is one answer with the bytes of its rule; the countdown in STATUS is the one that its start byte restarted. -/
theorem identifyAndStatusOnlyAnswer : Obligations.IdentifyAndStatusOnlyAnswer := by
  unfold Obligations.IdentifyAndStatusOnlyAnswer
  intro tag s hs
  constructor
  · rw [exec_of_asRequest (c := .identify tag) rfl, hostRequest_taken hs]
    refine (congrArg Host.Outcome.next (answer_atBlock hs.hand _ tag .identify)).trans ?_
    have hheader : (atBlock tag .identify s).mem = s.mem := rfl
    rw [hheader, identifyBytes]
    cases s.mem.header <;> rfl
  · rw [exec_of_asRequest (c := .status tag) rfl, hostRequest_taken hs]
    refine (congrArg Host.Outcome.next (answer_atBlock hs.hand _ tag .status)).trans ?_
    have hidle : (atBlock tag .status s).mon.idle = s.mon.idle.map fun _ => s.mon.idleMinutes * 60 := rfl
    have hcarriage : (atBlock tag .status s).seq.carriage = s.seq.carriage := rfl
    rw [statusBytes, hidle, hcarriage]
    cases s.mon.idle <;> cases s.seq.carriage <;> rfl

/-! ### The end of an event in an emptied part -/

/-- The Line Store holds one OPEN line without cells (R29, log 9). -/
def LineStore.isBlank (s : LineStore) : Prop := s.earlier = [] ∧ s.openLine.cells = []

theorem LineStore.isBlank.cells {s : LineStore} (h : s.isBlank) : s.cells = [] := by
  obtain ⟨hearlier, hcells⟩ := h
  simp [LineStore.cells, LineStore.lines, hearlier, hcells]

theorem LineStore.isBlank.unprinted {s : LineStore} (h : s.isBlank) : s.unprinted = 0 := by
  rw [LineStore.unprinted, h.cells]
  rfl

/-- With no cell there is none to release (R55). -/
theorem releasePass_of_blank {s : State} (h : s.store.isBlank) : releasePass s = s := by
  obtain ⟨pending, ⟨earlier, ⟨lstate, left, right, alignment, spacing, cells, bell, reach, segment, placement⟩, nextSeq, nextWord,
    openWord, apostrophe, settings⟩, seq, spell, mem, disp, mon, link⟩ := s
  obtain ⟨rfl, rfl⟩ : earlier = [] ∧ cells = [] := h
  simp [releasePass, releaseLines, releaseLine, releaseCells, LineStore.settleDone, setLatchIf]

/-- A header read that waits is the next transaction; otherwise, with one on the bus, nothing is granted (R150, R152a). -/
theorem grantBus_of_headerBusy {s : State} (h : s.mem.headerBusy = true) :
    grantBus s
      = if s.mem.transaction.isSome then s
        else { s with mem := { s.mem with headerWaiting := false, transaction := some { job := .header, mark := false } } } := by
  cases ht : s.mem.transaction with
  | some t => simp [grantBus, grantFuel, ht]
  | none =>
    have hw : s.mem.headerWaiting = true := by simpa [MemoryLink.headerBusy, ht] using h
    simp [grantBus, grantFuel, ht, hw, grantJob]

theorem headerBusy_requestHeader (s : State) : (requestHeader s).mem.headerBusy = true := by
  cases ht : s.mem.transaction with
  | none => simp [requestHeader, MemoryLink.headerBusy, ht]
  | some t =>
    obtain ⟨job, mark⟩ := t
    cases job <;> simp [requestHeader, MemoryLink.headerBusy, ht]

/-- OFF is left for homing, or INTERLOCKED with the cover open (R96). -/
theorem seqUpdate_of_off {s : State} (hm : s.seq.mech = .off) : seqUpdate s = homeOrInterlock true s := by
  simp [seqUpdate, seqLoop, hm]

/-- What a reset leaves, whatever was under way: no text, no jobs, no suspend reason, no check, no DRAIN, no latch, a header read asked for. -/
structure Emptied (s : State) : Prop where
  blank : s.store.isBlank
  jobs : s.seq.jobs = []
  suspend : s.seq.suspend = {}
  checks : s.spell.queue = []
  drain : s.link.drain = none
  latches : s.mon.latches = GroupBits.none
  pendingSet : s.mon.pendingSet = {}
  headerBusy : s.mem.headerBusy = true

namespace Emptied
variable {s : State} (h : Emptied s)
include h

/-- The next grant changes the Memory Link only, and a header read stays asked for. -/
theorem grantBus_eq :
    ∃ m : MemoryLink, grantBus s = { s with mem := m } ∧ m.headerBusy = true ∧ m.wait = s.mem.wait ∧ m.active = s.mem.active
      ∧ m.boundId = s.mem.boundId ∧ m.header = s.mem.header := by
  rw [grantBus_of_headerBusy h.headerBusy]
  split
  · exact ⟨s.mem, rfl, h.headerBusy, rfl, rfl, rfl, rfl⟩
  · exact ⟨_, rfl, by simp [MemoryLink.headerBusy], rfl, rfl, rfl, rfl⟩

/-- No check is taken and no cell released: of what comes before the sequencer only the grant is left. -/
theorem before_seqUpdate : releasePass (grantBus (takeChecks s)) = grantBus s := by
  obtain ⟨m, hgrant, -⟩ := h.grantBus_eq
  rw [takeChecks_empty h.checks, hgrant, releasePass_of_blank (s := { s with mem := m }) h.blank]

/-- The next grant leaves the part emptied. -/
theorem with_mem {m : MemoryLink} (hm : m.headerBusy = true) : Emptied { s with mem := m } :=
  { h with headerBusy := hm }

/-- No suspend reason can be noted without a job. -/
theorem seqUpdate_of_waiting (hm : s.seq.mech = .homing ∨ s.seq.mech = .interlocked) : seqUpdate s = s := by
  rw [seqUpdate_waits (hm.imp_right .inl)]
  have hribbon : ribbonWaits s = false := by simp [ribbonWaits, h.jobs]
  have htape : tapeWaits s = false := by simp [tapeWaits, h.jobs]
  have hset : ({ s.seq.suspend with
      ribbon := s.mon.levels.ribbonEnd && ribbonWaits s, tape := s.mon.levels.tapeEnd && tapeWaits s } : SuspendSet)
        = s.seq.suspend := by
    rw [hribbon, htape, Bool.and_false, Bool.and_false, h.suspend]
  rw [noteReasons, hset]

/-- After the sequencer the lamps, the countdown and the display follow; no type-ahead event, no DRAIN reply, no NOTICE. -/
theorem after_seqUpdate :
    noticeCheck (refreshDisplay (refreshIdle (refreshLamps (drainCheck (judgeTypeAhead 0 s)))))
      = refreshDisplay (refreshIdle (refreshLamps s)) := by
  have hcount : s.store.unprinted < 112 := by rw [h.blank.unprinted]; omega
  rw [judgeTypeAhead_none (.inr hcount) (.inl rfl), drainCheck_of_none h.drain]
  have hpending : PendingUpToDate s := by
    rw [PendingUpToDate, h.pendingSet, h.latches]
    simp [pendingOf, GroupBits.none]
  exact noticeCheck_of_upToDate (s := refreshDisplay (refreshIdle (refreshLamps s))) hpending

/-- Homing begun, or awaited, leaves the part emptied. -/
theorem homeOrInterlock : Emptied (homeOrInterlock true s) := by
  unfold Machine.homeOrInterlock
  split <;> exact ⟨h.blank, h.jobs, h.suspend, h.checks, h.drain, h.latches, h.pendingSet, h.headerBusy⟩

/-- The end of an event in which homing has begun, or waits for the cover: the next grant, then what follows every event. -/
theorem eventEnd_of_waiting (hm : s.seq.mech = .homing ∨ s.seq.mech = .interlocked) :
    eventEnd 0 s = refreshDisplay (refreshIdle (refreshLamps (grantBus s))) := by
  obtain ⟨m, hgrant, hbusy, -⟩ := h.grantBus_eq
  rw [eventEnd, h.before_seqUpdate, hgrant, (h.with_mem hbusy).seqUpdate_of_waiting hm, (h.with_mem hbusy).after_seqUpdate]

end Emptied

/-! ### Power-on (R96, R156, R194) -/

/-- The part at power-on with its lines read, the first grant still to come. -/
def poweredOn (bselHigh : Bool) (levels : SensorLevels) (s : State) : State :=
  { State.reset with
    pending := s.pending
    mon := { State.reset.mon with levels := levels }
    link := { State.reset.link with highBaud := bselHigh } }

theorem powerOn_eq (bselHigh : Bool) (levels : SensorLevels) (s : State) :
    powerOn bselHigh levels s = eventEnd 0 (poweredOn bselHigh levels s) := rfl

theorem emptied_poweredOn (bselHigh : Bool) (levels : SensorLevels) (s : State) : Emptied (poweredOn bselHigh levels s) :=
  ⟨⟨rfl, rfl⟩, rfl, rfl, rfl, rfl, rfl, rfl, rfl⟩

/-- The part at power-on with the header read on the bus (R150, R156). -/
def headerGranted (s : State) : State :=
  { s with mem := { s.mem with headerWaiting := false, transaction := some { job := .header, mark := false } } }

/-- At power-on lamps, countdown and display are already as what follows every event would leave them. -/
theorem refresh_poweredOn {bselHigh : Bool} {levels : SensorLevels} {s t : State} {q : Sequencer} {m : MemoryLink}
    (hq : q.mech = .homing ∨ q.mech = .interlocked) (ht : t = { poweredOn bselHigh levels s with seq := q, mem := m }) :
    refreshDisplay (refreshIdle (refreshLamps t)) = t := by
  have hholds : idleHolds t = false := by
    obtain hq | hq := hq <;> simp [idleHolds, ht, hq]
  have hlamps : refreshLamps t = t := by subst ht; rfl
  have hidle : refreshIdle t = t := by rw [refreshIdle, hholds]; subst ht; rfl
  have hdisplay : refreshDisplay t = t := by subst ht; rfl
  rw [hlamps, hidle, hdisplay]

/-- A power-on makes the first grant and begins homing. -/
theorem powerOn_granted (bselHigh : Bool) (levels : SensorLevels) (s : State) :
    powerOn bselHigh levels s = homeOrInterlock true (headerGranted (poweredOn bselHigh levels s)) := by
  have hempty := emptied_poweredOn bselHigh levels s
  have hgrant : grantBus (poweredOn bselHigh levels s) = headerGranted (poweredOn bselHigh levels s) :=
    grantBus_of_headerBusy hempty.headerBusy
  have hgranted : Emptied (headerGranted (poweredOn bselHigh levels s)) := hempty.with_mem rfl
  rw [powerOn_eq, eventEnd, hempty.before_seqUpdate, hgrant, seqUpdate_of_off rfl, hgranted.homeOrInterlock.after_seqUpdate]
  unfold homeOrInterlock
  split
  · exact refresh_poweredOn (.inl rfl) rfl
  · exact refresh_poweredOn (.inr rfl) rfl

/-- Settles O56: the first grant and the start of homing are the only changes to the power-on values with the lines read. -/
theorem powerOnResetStartsAfresh : Obligations.PowerOnResetStartsAfresh := by
  unfold Obligations.PowerOnResetStartsAfresh
  rintro bsel v s r rfl
  have hexec : exec (.powerOnReset bsel v) s = .next (homeOrInterlock true (headerGranted (poweredOn bsel v s))) :=
    congrArg Host.Outcome.next (powerOn_granted bsel v s)
  rw [hexec]
  exact ⟨fun hcover => congrArg _ (if_pos hcover), fun hcover => congrArg _ (if_neg (by simp [headerGranted, poweredOn, hcover]))⟩

/-! ### The warm reset (R193) -/

/-- A stop of all motion changes the store's cells and the sequencer; settings, platen count and impression setting stay (R91, R97). -/
theorem stopMotion_eq (s : State) :
    ∃ (st : LineStore) (q : Sequencer), stopMotion s = { s with store := st, seq := q } ∧ st.settings = s.store.settings
      ∧ q.platen = s.seq.platen ∧ q.setting = s.seq.setting := by
  dsimp only [stopMotion]
  split <;> exact ⟨_, _, rfl, rfl, rfl, rfl⟩

/-- The state from which a warm reset homes: every block has been reset. -/
def warmEmptied (s : State) : State :=
  let u := resetSignals (resetLookup (resetSequencer s))
  { u with store := resetStore u.store, link := resetLink u.link }

theorem warmReset_eq (s : State) : warmReset s = eventEnd 0 (homeOrInterlock true (warmEmptied s)) := rfl

/-- The state from which a warm reset homes, block by block: only the sequencer's is not given by the block alone. -/
theorem warmEmptied_blocks (s : State) :
    ∃ q : Sequencer,
      warmEmptied s
        = { s with
            store := resetStore s.store
            seq := q
            spell := (resetLookup s).spell
            mem := (resetLookup s).mem
            disp := { endOverlay s.disp with winStart := 0 }
            mon := { s.mon with latches := GroupBits.none, pendingSet := {}, beeper := none }
            link := resetLink s.link }
      ∧ q.jobs = [] ∧ q.inFlight = false ∧ q.suspend = {} ∧ q.carriage = none ∧ q.petal = none ∧ q.platen = s.seq.platen
      ∧ q.setting = s.seq.setting := by
  obtain ⟨st, q, hstop, hsettings, hplaten, hsetting⟩ := stopMotion_eq s
  have hstore : resetStore st = resetStore s.store := by simp only [resetStore, hsettings]
  refine ⟨{ q with jobs := [], inFlight := false, suspend := {}, carriage := none, petal := none }, ?_, rfl, rfl, rfl, rfl, rfl, hplaten,
    hsetting⟩
  simp only [warmEmptied, resetSequencer, hstop, ← hstore]
  rfl

/-- Homing begun, or awaited, changes the sequencer only (R97). -/
theorem homeOrInterlock_eq (s : State) :
    ∃ q : Sequencer,
      homeOrInterlock true s = { s with seq := q }
      ∧ q.mech = (if s.mon.levels.cover then .homing else .interlocked)
      ∧ q.carriage = (if s.mon.levels.cover then none else s.seq.carriage)
      ∧ q.petal = (if s.mon.levels.cover then (if s.mon.levels.wheelIndex then some 0 else none) else s.seq.petal)
      ∧ q.jobs = s.seq.jobs ∧ q.inFlight = s.seq.inFlight ∧ q.suspend = s.seq.suspend ∧ q.platen = s.seq.platen
      ∧ q.setting = s.seq.setting := by
  unfold homeOrInterlock
  split
  · exact ⟨_, rfl, rfl, rfl, rfl, rfl, rfl, rfl, rfl, rfl⟩
  · exact ⟨_, rfl, rfl, rfl, rfl, rfl, rfl, rfl, rfl, rfl⟩

/-- The waiting frames go, and an outstanding DRAIN is refused RESET (R193, R62). -/
theorem resetLink_eq (k : ControlLink) :
    resetLink k
      = { k with
          input := [], drain := none
          output := k.output ++ (k.drain.map fun d => refuseFrame 0x12 d .reset).toList } := by
  unfold resetLink
  split
  case h_1 hd => simp [hd]
  case h_2 d hd => simp [hd]

theorem emptied_warmEmptied (s : State) : Emptied (warmEmptied s) := by
  obtain ⟨q, heq, hjobs, -, hsuspend, -⟩ := warmEmptied_blocks s
  rw [heq, resetLink_eq]
  exact ⟨⟨rfl, rfl⟩, hjobs, hsuspend, rfl, rfl, rfl, rfl, headerBusy_requestHeader _⟩

/-- A stale lookup goes on, one whose read still waits is gone, one on the bus becomes stale (R140, R157, log 35). -/
theorem lookupAfterReset_cases (waits : Bool) (k : Lookup) :
    (k.stale = true → lookupAfterReset waits (some k) = some k)
    ∧ (k.stale = false → waits = true → lookupAfterReset waits (some k) = none)
    ∧ (k.stale = false → waits = false → lookupAfterReset waits (some k) = some { k with stale := true }) := by
  refine ⟨fun h => ?_, fun h hw => ?_, fun h hw => ?_⟩
  all_goals simp [lookupAfterReset, *]

/-- A warm reset: the blocks emptied, homing begun or awaited, the next grant, and what follows every event. -/
theorem warmReset_blocks (s : State) :
    ∃ (q : Sequencer) (m : MemoryLink),
      warmReset s = refreshDisplay (refreshIdle (refreshLamps { warmEmptied s with seq := q, mem := m }))
      ∧ q.mech = (if s.mon.levels.cover then .homing else .interlocked) ∧ q.carriage = none
      ∧ q.petal = (if s.mon.levels.cover && s.mon.levels.wheelIndex then some 0 else none)
      ∧ q.jobs = [] ∧ q.inFlight = false ∧ q.suspend = {} ∧ q.platen = s.seq.platen ∧ q.setting = s.seq.setting
      ∧ m.headerBusy = true ∧ m.wait = none ∧ m.active = s.mem.active ∧ m.boundId = s.mem.boundId ∧ m.header = s.mem.header := by
  obtain ⟨qEmpty, hempty, hjobs, hflight, hsuspend, hcarriage, hpetal, hplaten, hsetting⟩ := warmEmptied_blocks s
  obtain ⟨q, hhome, hmech, hcarriage', hpetal', hjobs', hflight', hsuspend', hplaten', hsetting'⟩ := homeOrInterlock_eq (warmEmptied s)
  have hhomed := (emptied_warmEmptied s).homeOrInterlock
  obtain ⟨m, hgrant, hbusy, hwait, hactive, hbound, hheader⟩ := hhomed.grantBus_eq
  have hlevels : (warmEmptied s).mon.levels = s.mon.levels := by rw [hempty]
  have hwaiting : (homeOrInterlock true (warmEmptied s)).seq.mech = .homing
      ∨ (homeOrInterlock true (warmEmptied s)).seq.mech = .interlocked := by
    rw [hhome]
    change q.mech = .homing ∨ q.mech = .interlocked
    rw [hmech]
    split <;> simp
  rw [hhome] at hgrant hwait hactive hbound hheader
  rw [hlevels] at hmech hcarriage' hpetal'
  rw [hempty] at hcarriage' hpetal' hjobs' hflight' hsuspend' hplaten' hsetting' hwait hactive hbound hheader
  refine ⟨q, m, ?_, hmech, hcarriage'.trans ?_, hpetal'.trans ?_, hjobs'.trans hjobs, hflight'.trans hflight, hsuspend'.trans hsuspend,
    hplaten'.trans hplaten, hsetting'.trans hsetting, hbusy, hwait, hactive, hbound, hheader⟩
  · rw [warmReset_eq, hhomed.eventEnd_of_waiting hwaiting, hhome, hgrant]
  · rw [hcarriage, ite_self]
  · rw [hpetal]
    cases s.mon.levels.cover <;> simp

/-- Settles O55: the ACK is queued before the reset, and each block is as the reset of its owner leaves it. -/
theorem warmResetEmptiesThePart : Obligations.WarmResetEmptiesThePart := by
  unfold Obligations.WarmResetEmptiesThePart
  intro tag s hs
  let u := reply 0x20 tag [] (atBlock tag .reset s)
  obtain ⟨qEmpty, hempty, -⟩ := warmEmptied_blocks u
  obtain ⟨q, m, hreset, hmech, hcarriage, hpetal, hjobs, hflight, hsuspend, hplaten, hsetting, hbusy, hwait, hactive, hbound, hheader⟩ :=
    warmReset_blocks u
  have hexec : exec (.reset tag) s = .next (warmReset u) :=
    (exec_of_asRequest (c := .reset tag) rfl s).trans (congrArg _ (hostRequest_taken hs tag .reset))
  rw [hreset, hempty, resetLink_eq] at hexec
  refine ⟨_, hexec, rfl, rfl, rfl, rfl, rfl, rfl, rfl, hjobs, hflight, hsuspend, hcarriage, hpetal, hmech, hplaten, hsetting, rfl, rfl, rfl,
    rfl, rfl, ?noLookup, ?lookup, hwait, hactive, hbound, hheader, hbusy, rfl, rfl, rfl, rfl, rfl, rfl, rfl, rfl, rfl, rfl, rfl, rfl, rfl, rfl,
    rfl, ?output⟩
  case noLookup =>
    intro hk
    exact congrArg (lookupAfterReset s.mem.dictWaiting) hk
  case lookup =>
    intro k hk
    obtain ⟨hstale, hwaits, hread⟩ := lookupAfterReset_cases s.mem.dictWaiting k
    have hlookup : lookupAfterReset s.mem.dictWaiting s.spell.lookup = lookupAfterReset s.mem.dictWaiting (some k) := congrArg _ hk
    exact ⟨fun h => hlookup.trans (hstale h), fun h hw => hlookup.trans (hwaits h hw), fun h hw => hlookup.trans (hread h hw)⟩
  case output =>
    change s.link.output ++ [replyFrame 0x20 tag []] ++ (s.link.drain.map fun d => refuseFrame 0x12 d .reset).toList = _
    cases s.link.drain <;> rfl

end Sys2Proof.Machine
end

section
/-! PROOFS. One step (log 3): what it does with an empty queue and with the command at the front of a queue; then O1. -/

namespace Sys2Proof.Machine

theorem step_of_pending_nil {s : State} (hempty : s.pending = []) : step s = .next s := by
  simp only [step, hempty]

theorem step_of_pending_cons {s : State} {c : Instr} {rest : List Instr} (hfront : s.pending = c :: rest) :
    step s = exec c { s with pending := rest } := by
  simp only [step, hfront]

/-- Settles O1: the two cases of the queue, empty and with a command at its front. -/
theorem stepRunsFrontCommand : Obligations.StepRunsFrontCommand := by
  unfold Obligations.StepRunsFrontCommand
  constructor
  case left =>
    intro c rest s
    exact step_of_pending_cons (s := { s with pending := c :: rest }) rfl
  case right =>
    intro s hempty
    exact step_of_pending_nil hempty

end Sys2Proof.Machine
end
